-- ==== Sys2Proof/Word.lean ====
section
/-! DEFINITION. The bit widths the PF416 shows at its pins and in its counters (00_scope.md, chapter 11). -/

namespace Sys2Proof

/-- One byte of a management frame, a payload or a code field. -/
abbrev Byte := BitVec 8

/-- The 64 bytes of data of one line, as one beat carries them (11.1). -/
abbrev LineData := BitVec 512

/-- A 34-bit byte address, upstream or downstream (00_scope.md, R2). -/
abbrev Addr := BitVec 34

/-- An upstream or downstream tag, 0..255 (R24, R52). -/
abbrev Tag := BitVec 8

/-- Milliseconds since power-on, 32 bits, wrapping (R97). -/
abbrev Epoch := BitVec 32

/-- A fault record's sequence number, 16 bits, wrapping (R135). -/
abbrev Seq := BitVec 16

/-- The 40 bits of one fuse slot, bit 0 the least significant (11.2). -/
abbrev FuseWord := BitVec 40

end Sys2Proof
end

