-- ==== Sys2Proof/Config.lean ====
section
/-! DEFINITION. The sizes the spec fixes, and what the spec leaves to the board at the rise of PWR_OK.
The spec leaves no value free, so there is no opaque constant here. -/

namespace Sys2Proof.Config

/-- Spares of the pool, and entries of the remap table (R3, R4). -/
def spares : Nat := 128

/-- Slots of the in-flight tracker, and credits granted at READY (R24, R25). -/
def trackerSlots : Nat := 64

/-- Places of the hold buffer (R32). -/
def holdPlaces : Nat := 4

/-- Places of the retire queue (R65). -/
def retirePlaces : Nat := 8

/-- Positions of the suspect table (R99). -/
def suspectPositions : Nat := 32

/-- Records the fault record queue holds (R135). -/
def recordPlaces : Nat := 64

/-- Slots of the fuse record list (R149). -/
def fuseSlots : Nat := 32

/-- The most downstream credits the part holds (R51). -/
def maxDownCredits : Nat := 128

/-- The most the background wait count reaches (R55). -/
def maxBgWait : Nat := 64

/-- Quads of a block (R2). -/
def quads : Nat := 64

/-- The programming timer's limit on PROGRAMMING, in milliseconds (R163). -/
def programmingLimit : Nat := 190

/-- The upper end of the programming timer's range, in milliseconds (R149). -/
def programmingTimerMax : Nat := 200

/-- The byte sent on MSO in every position that carries no result byte (R200). -/
def filler : Byte := 0xFF#8

/-- The fuse array of `State.reset`: no bit programmed. DESIGN CHOICE (log 2), unsafe: the spec gives the array's
contents only through the records programmed into it. -/
def resetFuseArray : List FuseWord := List.replicate fuseSlots 0#40

/-- The level of PRST_N in `State.reset`: high. DESIGN CHOICE (log 3), unsafe. -/
def resetPrstN : Bool := true

/-- The level of FWE in `State.reset`: low. DESIGN CHOICE (log 3), unsafe. -/
def resetFwe : Bool := false

/-- The level of MCS_N in `State.reset`: high. DESIGN CHOICE (log 3), unsafe. -/
def resetMcs : Bool := true

end Sys2Proof.Config
end

