-- ==== Sys2Proof/Machine/Bytes.lean ====
section
/-! DEFINITION. Byte order and the CRC-8 of the part: bits and multi-byte values are most significant first (R172), the check
of R175. -/

namespace Sys2Proof.Machine

/-- One byte of a number, most significant first when taken with a falling `i`. -/
def byteOf (n i : Nat) : Byte := BitVec.ofNat 8 (n / 256 ^ i)

/-- A value in one byte. -/
def be1 (n : Nat) : List Byte := [byteOf n 0]

/-- A value in two bytes, most significant byte first. -/
def be2 (n : Nat) : List Byte := [byteOf n 1, byteOf n 0]

/-- A value in three bytes, the width of a block field (R201). -/
def be3 (n : Nat) : List Byte := [byteOf n 2, byteOf n 1, byteOf n 0]

/-- A value in four bytes, the width of an epoch (R201). -/
def be4 (n : Nat) : List Byte := [byteOf n 3, byteOf n 2, byteOf n 1, byteOf n 0]

/-- The unsigned number of a list of bytes, most significant byte first (R183). -/
def ofBe (bs : List Byte) : Nat := bs.foldl (fun n b => n * 256 + b.toNat) 0

/-! ### Bytes on the wire (R172) -/

/-- The byte of up to eight MSI levels, received most significant bit first (R172). -/
def byteOfBits (bits : List Bool) : Byte := bits.foldl (fun b level => b <<< 1 ||| (BitVec.ofBool level).setWidth 8) 0#8

/-- The whole bytes of the MSI levels at the rising edges of MSCK: eight consecutive edges make one, and the bits of a partial
byte are discarded (R172). -/
def bytesOfBits : List Bool → List Byte
  | b7 :: b6 :: b5 :: b4 :: b3 :: b2 :: b1 :: b0 :: rest =>
    byteOfBits [b7, b6, b5, b4, b3, b2, b1, b0] :: bytesOfBits rest
  | _ => []

/-- Rising edges were counted after the last whole byte: the frame ends with a partial byte (R172). -/
def endsPartial (bits : List Bool) : Bool := bits.length % 8 != 0

/-- The levels of a string of bits, from the left. -/
def levelsOf {n : Nat} (bits : BitVec n) : List Bool := (List.range n).map fun i => bits.getMsbD i

/-- The MSI levels that carry a byte, most significant bit first (R172). -/
def bitsOfByte (b : Byte) : List Bool := levelsOf b

/-- The MSI levels that carry a string of bytes. -/
def bitsOf (bytes : List Byte) : List Bool := bytes.flatMap bitsOfByte

/-! ### The CRC-8 (R175) -/

/-- One bit of the CRC-8: shift left, and subtract the polynomial x^8+x^2+x+1 when a one is shifted out (R175). -/
def crcBit (c : Byte) : Byte := if c.msb then (c <<< 1) ^^^ 0x07#8 else c <<< 1

/-- Eight bits of the CRC-8. -/
def crcShift (c : Byte) : Byte := crcBit (crcBit (crcBit (crcBit (crcBit (crcBit (crcBit (crcBit c)))))))

/-- The CRC-8 of the part: initial value 0, bytes in the order sent, most significant bit first, no reflection and no
final inversion (R175). -/
def crc8 (bs : List Byte) : Byte := bs.foldl (fun c b => crcShift (c ^^^ b)) 0#8

end Sys2Proof.Machine
end

