-- ==== Sys2Proof/Machine/Frames.lean ====
section
/-! DEFINITION. The frames of the management port: the command codes of 11.3, and what a frame is at the rise of MCS_N
(R174 to R177). -/

namespace Sys2Proof.Machine

/-- The twenty commands of the command summary (9.7). -/
inductive Command
  | getStatus | resultRead | getParam | setParam
  | readMap | mapSoft | unmapSoft | banSpare
  | retire | cancelRetire | abortMigration | readMigration
  | readSuspect | clearSuspect | rearm
  | readFaults | ackFaults
  | commitHard | commitBan | readFuse
  deriving DecidableEq, Repr

/-- The command codes of 11.3. -/
def Command.code : Command → Byte
  | .getStatus => 0x01#8 | .resultRead => 0x02#8 | .getParam => 0x03#8 | .setParam => 0x04#8
  | .readMap => 0x10#8 | .mapSoft => 0x11#8 | .unmapSoft => 0x12#8 | .banSpare => 0x13#8
  | .retire => 0x20#8 | .cancelRetire => 0x21#8 | .abortMigration => 0x22#8 | .readMigration => 0x23#8
  | .readSuspect => 0x30#8 | .clearSuspect => 0x31#8 | .rearm => 0x32#8
  | .readFaults => 0x40#8 | .ackFaults => 0x41#8
  | .commitHard => 0x50#8 | .commitBan => 0x51#8 | .readFuse => 0x52#8

/-- Every command, in the order of 11.3. -/
def Command.all : List Command :=
  [.getStatus, .resultRead, .getParam, .setParam, .readMap, .mapSoft, .unmapSoft, .banSpare, .retire, .cancelRetire,
    .abortMigration, .readMigration, .readSuspect, .clearSuspect, .rearm, .readFaults, .ackFaults, .commitHard,
    .commitBan, .readFuse]

/-- The command a code is assigned to, if any (R200). -/
def Command.ofCode (b : Byte) : Option Command := Command.all.find? (fun c => c.code == b)

/-- The argument lengths a command takes (9.7; READ_MIGRATION takes 0 or 1, R92). -/
def Command.lengths : Command → List Nat
  | .getStatus | .resultRead | .abortMigration => [0]
  | .readMigration => [0, 1]
  | .getParam | .readMap | .unmapSoft | .banSpare | .readSuspect | .commitHard | .commitBan | .readFuse => [1]
  | .readFaults | .ackFaults => [2]
  | .setParam | .retire | .cancelRetire | .clearSuspect | .rearm => [3]
  | .mapSoft => [4]

/-- Why a frame is malformed (R177). -/
inductive FrameReason
  | length | short | check | long
  deriving DecidableEq, Repr

/-- The reason byte of a FRAME result (R200). -/
def FrameReason.byte : FrameReason → Byte
  | .length => 1#8 | .short => 2#8 | .check => 3#8 | .long => 4#8

/-- What a frame is at the rise of MCS_N. -/
inductive Frame
  | readFrame
  | malformed (reason : FrameReason)
  | command (code : Byte) (args : List Byte)
  deriving DecidableEq, Repr

/-- The three bytes that open a read frame: the RESULT_READ code, length 0, and their check (R176). -/
def readFrameOpening : List Byte :=
  [Command.resultRead.code, 0#8, crc8 [Command.resultRead.code, 0#8]]

/-- What a frame of these whole bytes is, with or without a partial byte after them: a read frame (R176), or the first
test of R177 that applies, or a whole command frame. The check is taken over every whole byte received (R175). -/
def frameOf (bytes : List Byte) (partialByte : Bool) : Frame :=
  if bytes.take 3 = readFrameOpening then .readFrame
  else match bytes with
    | code :: n :: rest =>
      if 12 < n.toNat then .malformed .length
      else if rest.length < n.toNat + 1 then .malformed .short
      else if crc8 bytes ≠ 0#8 then .malformed .check
      else if n.toNat + 1 < rest.length ∨ partialByte = true then .malformed .long
      else .command code (rest.take n.toNat)
    | _ => .malformed .short

/-- What a frame of these MSI levels is: its whole bytes and its partial byte, if any, checked (R172, R177). -/
def frameOfBits (msi : List Bool) : Frame := frameOf (bytesOfBits msi) (endsPartial msi)

/-- The bytes of the frame that carries a command: code, argument length, arguments and check (R174). -/
def frameBytes (code : Byte) (args : List Byte) : List Byte :=
  let body := code :: BitVec.ofNat 8 args.length :: args
  body ++ [crc8 body]

end Sys2Proof.Machine
end

