-- ==== Sys2Proof/Syntax.lean ====
section
/-! DEFINITION. The commands: one constructor of `Instr` for each row of opcode_table.json, with the row's operands.
A management command carries its argument bytes as sent in the frame (R174, R183). -/

namespace Sys2Proof

/-- READ or WRITE: the kind of an upstream request and the direction of a downstream one (R24, R52). -/
inductive Access
  | read
  | write
  deriving DecidableEq, Repr

/-- One line of a write payload: a beat whose side field's bit 0 is the poison flag (11.1). -/
structure WriteLine where
  data : LineData
  poison : Bool
  deriving DecidableEq, Repr

/-- One beat of a response: the data of a line and its two-bit side field (11.1). -/
structure ReadBeat where
  data : LineData
  side : BitVec 2
  deriving DecidableEq, Repr

/-- The units whose items GET_STATUS reports (R187); the pin is PRST_N as sampled. -/
inductive StatusUnit
  | fuse | watch | pin | records | map | migration | request | arbiter | patrol
  deriving DecidableEq, Repr

/-- The straps of the board (11.5): CAP[1:0], and FWE high or low. -/
structure Straps where
  cap : BitVec 2
  fweHigh : Bool
  deriving DecidableEq, Repr

/-- A GET_STATUS: its argument bytes as sent, and the units whose items are reported as an event taken together with the
command leaves them; the items of the others are reported as it finds them (R187). -/
structure StatusFrame where
  args : List Byte
  ahead : List StatusUnit
  deriving DecidableEq, Repr

/-- The commands of the part, a row of opcode_table.json each. -/
inductive Instr
  /-- POWER_ON (R153): the rise of PWR_OK, with the straps and the levels of PRST_N and MCS_N it finds (R173 for MCS_N). -/
  | powerOn (straps : Straps) (prstHigh mcsHigh : Bool)
  /-- POWER_LOSS (R167): the fall of PWR_OK. -/
  | powerLoss
  /-- READY (R157): the end of LOADING. -/
  | ready
  /-- PRST_N_FALL (R63). -/
  | prstNFall
  /-- PRST_N_RISE (R49). -/
  | prstNRise
  /-- UPSTREAM_REQUEST (R27): a message of type 1 or 2 with its tag, size code, address and beats (R197). -/
  | upstreamRequest (kind : Access) (tag : Tag) (sizeCode : BitVec 2) (addr : Addr) (beats : List WriteLine)
  /-- UPSTREAM_OTHER_MESSAGE (R197): a message of another type. -/
  | upstreamOtherMessage (type : BitVec 4)
  /-- ISSUE_GRANT (R55): the channel is ready and the arbiter may take a grant. -/
  | issueGrant
  /-- DOWNSTREAM_RESPONSE (R60): tag, status code and beats (R198). `reportFirst` says which of the owner's handling and
  the error watch unit's handling of the same response is taken first (R61, R129). -/
  | downstreamResponse (tag : Tag) (status : BitVec 2) (beats : List ReadBeat) (reportFirst : Bool)
  /-- DOWNSTREAM_CREDIT_GRANT (R51): a message of type 9 with its count. -/
  | downstreamCreditGrant (count : Byte)
  /-- DOWNSTREAM_OTHER_MESSAGE (R198): a message of another type. -/
  | downstreamOtherMessage (type : BitVec 4)
  /-- STATUS_REPORT (R100): the error watch unit takes the waiting report at position k (0 the oldest). -/
  | statusReport (k : Nat)
  /-- TARGET_FAILURE (R87): the migration unit takes the waiting report at position k (0 the oldest). -/
  | targetFailure (k : Nat)
  /-- START (R72): the migration unit takes an outstanding start event. -/
  | start
  /-- CLAIM (R76). -/
  | claim
  /-- CLAIM_DRAIN_MET (R77). -/
  | claimDrainMet
  /-- COMMIT (R85). -/
  | commit
  /-- COPY_DEADLINE_EXPIRY (R83). -/
  | copyDeadlineExpiry
  /-- SLOT_DEADLINE_EXPIRY (R43, R44) of the tracker slot with this number. -/
  | slotDeadlineExpiry (slot : Nat)
  /-- PATROL_DEADLINE_EXPIRY (R131). -/
  | patrolDeadlineExpiry
  /-- GAP_EXPIRY (R123). -/
  | gapExpiry
  /-- ISSUE_ATTEMPT (R125). -/
  | issueAttempt
  /-- DECAY_EXPIRY (R113). -/
  | decayExpiry
  /-- TAKE_RECORD (R138): the record unit takes the handed record at position k (0 the oldest). -/
  | takeRecord (k : Nat)
  /-- MARKER_PROGRAMMED (R163): the fuse array reports the written marker programmed; `holds` says whether it then
  reads 1. -/
  | markerProgrammed (holds : Bool)
  /-- PROGRAMMING_TIMEOUT (R163). -/
  | programmingTimeout
  /-- END_OF_VERIFYING (R164, R165). -/
  | endOfVerifying
  /-- MALFORMED_FRAME (R177): the number of rising edges of MSCK between the fall and the rise of MCS_N, and the level of MSI at
  each, the first at the left (R172). -/
  | malformedFrame (edges : Nat) (msi : BitVec edges)
  /-- UNKNOWN_COMMAND (R182): a whole frame whose code is not assigned. -/
  | unknownCommand (code : Byte) (args : List Byte)
  /-- GET_STATUS (R187), code 0x01. -/
  | getStatus (frame : StatusFrame)
  /-- RESULT_READ (R176, R181), code 0x02; `clocked` whole bytes are clocked after the third byte of a read frame. -/
  | resultRead (args : List Byte) (clocked : Nat)
  /-- GET_PARAM(id) (R191), code 0x03. -/
  | getParam (args : List Byte)
  /-- SET_PARAM(id, value) (R192), code 0x04. -/
  | setParam (args : List Byte)
  /-- READ_MAP(s) (R20), code 0x10. -/
  | readMap (args : List Byte)
  /-- MAP_SOFT(L, s) (R21), code 0x11. -/
  | mapSoft (args : List Byte)
  /-- UNMAP_SOFT(s) (R22), code 0x12. -/
  | unmapSoft (args : List Byte)
  /-- BAN_SPARE(s) (R23), code 0x13. -/
  | banSpare (args : List Byte)
  /-- RETIRE(L) (R68), code 0x20. -/
  | retire (args : List Byte)
  /-- CANCEL_RETIRE(L) (R69), code 0x21. -/
  | cancelRetire (args : List Byte)
  /-- ABORT_MIGRATION (R90), code 0x22. -/
  | abortMigration (args : List Byte)
  /-- READ_MIGRATION or READ_MIGRATION(k) (R92), code 0x23. -/
  | readMigration (args : List Byte)
  /-- READ_SUSPECT(i) (R116), code 0x30. -/
  | readSuspect (args : List Byte)
  /-- CLEAR_SUSPECT(p) (R117), code 0x31. -/
  | clearSuspect (args : List Byte)
  /-- REARM(p) (R118), code 0x32. -/
  | rearm (args : List Byte)
  /-- READ_FAULTS(i, n) (R142), code 0x40. -/
  | readFaults (args : List Byte)
  /-- ACK_FAULTS(seq) (R143), code 0x41. -/
  | ackFaults (args : List Byte)
  /-- COMMIT_HARD(s) (R160), code 0x50. -/
  | commitHard (args : List Byte)
  /-- COMMIT_BAN(s) (R161), code 0x51. -/
  | commitBan (args : List Byte)
  /-- READ_FUSE(k) (R169), code 0x52. -/
  | readFuse (args : List Byte)
  /-- EPOCH_TICK (R97): the 1 ms tick. -/
  | epochTick
  /-- BIT_PROGRAMMED (R163): the fuse array reports bit `bit` of the programming record programmed; `holds` says whether
  it then reads 1 (R150: "unless a bit failed to program"). -/
  | bitProgrammed (bit : Nat) (holds : Bool)
  /-- FWE_CHANGE (R159): the new level of FWE. -/
  | fweChange (high : Bool)
  deriving DecidableEq, Repr

end Sys2Proof
end

