-- ==== Sys2Proof/WellFormed.lean ====
section
/-! DEFINITION. Which commands can be sent as the row they are: a decidable check on a command's operands.
`exec` is total on every term; the check says which terms the ports can carry. -/

namespace Sys2Proof

/-- The command's operands are ones its row can carry:
- a read request carries no beat (11.1); the number of beats of a write is checked by the part itself (R197);
- a message of "another type" has a type that is neither of the port's own (R197, R198);
- a tracker slot is 0..63 (R24), a fuse bit is one below the marker (R150);
- a frame carries at most 12 argument bytes (R174), a MALFORMED_FRAME is malformed (R177), and the code of an
  UNKNOWN_COMMAND is not assigned (R182);
- bytes are clocked after the opening of a read frame only (R176). -/
def Instr.wellFormed : Instr → Bool
  | .upstreamRequest .read _ _ _ beats => beats.isEmpty
  | .upstreamOtherMessage type => type != 1#4 && type != 2#4
  | .downstreamOtherMessage type => type != 8#4 && type != 9#4
  | .slotDeadlineExpiry slot => decide (slot < Config.trackerSlots)
  | .bitProgrammed bit _ => decide (bit < 39)
  | .malformedFrame _ msi =>
    match Machine.frameOfBits (Machine.levelsOf msi) with
    | .malformed _ => true
    | _ => false
  | .unknownCommand code args => (Machine.Command.ofCode code).isNone && decide (args.length ≤ 12)
  | .resultRead args clocked => decide (args.length ≤ 12) && (args.isEmpty || clocked == 0)
  | .getStatus ⟨args, _⟩ | .getParam args | .setParam args | .readMap args | .mapSoft args | .unmapSoft args
  | .banSpare args | .retire args | .cancelRetire args | .abortMigration args | .readMigration args
  | .readSuspect args | .clearSuspect args | .rearm args | .readFaults args | .ackFaults args
  | .commitHard args | .commitBan args | .readFuse args => decide (args.length ≤ 12)
  | .upstreamRequest .write _ _ _ _ | .powerOn _ _ _ | .powerLoss | .ready | .prstNFall | .prstNRise | .issueGrant
  | .downstreamResponse _ _ _ _ | .downstreamCreditGrant _ | .statusReport _ | .targetFailure _ | .start | .claim
  | .claimDrainMet | .commit | .copyDeadlineExpiry | .patrolDeadlineExpiry | .gapExpiry | .issueAttempt
  | .decayExpiry | .takeRecord _ | .markerProgrammed _ | .programmingTimeout | .endOfVerifying | .epochTick
  | .fweChange _ => true

end Sys2Proof
end

