-- ==== Sys2Proof/Decode.lean ====
section
/-! DEFINITION. The host's decoder over opcode_table.json: the table gives bits to none of its 52 rows, so no word spells a
command. The frames of the management port, which do have bytes, are decoded in Machine/Frames.lean. -/

namespace Sys2Proof

/-- The command a word of `nbits` bits spells by the table's bits: none, since no row of the table has bits. -/
def decodeTableWord (_nbits _w : Nat) : Option Instr := none

end Sys2Proof
end

