-- ==== Sys2Proof/Machine/State.lean ====
section
/-! DEFINITION. The state of the PF416 as plain data, unit by unit, and its value at the rise of PWR_OK. A field that the
spec calls absent outside a condition is a constructor argument or an Option. -/

namespace Sys2Proof.Machine

/-! ### Outcomes -/

/-- The reasons a command could stop the part: none. The spec gives every command an effect (INVENTORY.md, "Faults"), so
nothing raises a fault; the type is empty, which is safe. -/
inductive Fault
  deriving DecidableEq, Repr

/-- The reasons a command could be refused. -/
inductive Refusal
  /-- Raised by an arm of `exec` for a row that has no meaning yet; safe. No arm raises it now. -/
  | notModelled (mnemonic : String)
  deriving DecidableEq, Repr

/-! ### Sizes and capacity -/

/-- Lines of a request: 1, 2 or 4 (00_scope.md). -/
inductive Size
  | one | two | four
  deriving DecidableEq, Repr

/-- The capacity sampled from CAP[1:0] (R1). -/
inductive Capacity
  | gib2 | gib4 | gib8 | gib16
  deriving DecidableEq, Repr

/-! ### Map unit (chapter 1) -/

/-- One entry of the remap table (R4). Each constructor holds the fields present in its state. `hard`'s slot is its MAP
record's; `retired`'s slot is the BAN record's when banned, else the MAP record's of a former HARD entry. -/
inductive Entry
  | free
  | reserved (l : Nat)
  | soft (l : Nat) (commitPending : Bool)
  | hard (l slot : Nat)
  | retired (l slot : Option Nat) (banned commitPending : Bool)
  deriving DecidableEq, Repr

/-- The map unit's classification of a physical block, with the spare index and the logical block served (R8). -/
inductive BlockClass
  | homeInUse (l : Nat)
  | homeRemapped
  | freeSpare (s : Nat)
  | migrationTarget (s : Nat)
  | servingSpare (s l : Nat)
  | retiredSpare (s : Nat)
  deriving DecidableEq, Repr

/-! ### Request unit (chapter 2) -/

/-- A line status as a response carries it (R38). -/
inductive LineStatus
  | ok | corrected | uncorrectable
  deriving DecidableEq, Repr

/-- A line of a read answer: data and status. -/
structure ReadLine where
  data : LineData
  status : LineStatus
  deriving DecidableEq, Repr

/-- A downstream answer after the form check of R62 and R198. -/
inductive Answer
  | data (lines : List ReadLine)
  | done
  | failed
  deriving DecidableEq, Repr

/-- DONE or FAILED. -/
inductive DoneOrFailed
  | done | failed
  deriving DecidableEq, Repr

/-- A half of a tracker slot: block, downstream tag, and OUTSTANDING (`none`) or ANSWERED with its status (R24). -/
structure Half where
  block : Nat
  tag : Tag
  answer : Option DoneOrFailed
  deriving DecidableEq, Repr

/-- The merged status of a slot: DONE or FAILED, and the lines received for a READ (R24). -/
structure Merged where
  status : DoneOrFailed
  lines : List ReadLine
  deriving DecidableEq, Repr

/-- The states of a tracker slot in use (R24). -/
inductive SlotState
  | queued | held | active | orphan
  deriving DecidableEq, Repr

/-- A tracker slot in use (R24). The logical block and the quad are those of the address (R2). The deadline is in
microseconds since power-on. -/
structure Slot where
  state : SlotState
  tag : Tag
  kind : Access
  addr : Addr
  size : Size
  payload : Option (List WriteLine)
  deadline : Nat
  answered : Bool
  first : Option Half
  second : Option Half
  merged : Option Merged
  deriving DecidableEq, Repr

/-- The request unit: upstream credits granted and not yet seen used (R25), the tracker (R24), the relay queue (R30) and the
hold buffer (R32), both as slot numbers in order. -/
structure RequestUnit where
  credits : Nat
  slots : List (Option Slot)
  relay : List Nat
  hold : List Nat
  deriving DecidableEq, Repr

/-- The rejection reasons of R27, with the codes of 11.1. -/
inductive RejectReason
  | overrun | tagInUse | align | range
  deriving DecidableEq, Repr

/-- The status of an upstream response (11.1). -/
inductive UpStatus
  | done | failed | timeout
  | rejected (reason : RejectReason)
  deriving DecidableEq, Repr

/-- A message from the part to the requester (11.1): a response with tag, status, size code and beats, or a credit
grant. -/
inductive UpMessage
  | response (tag : Tag) (status : UpStatus) (sizeCode : BitVec 2) (beats : List ReadBeat)
  | credit (count : Byte)
  deriving DecidableEq, Repr

/-! ### Issue arbiter (chapter 3) -/

/-- The owner of an outstanding entry; REQUEST names its tracker slot (R52). -/
inductive Owner
  | request (slot : Nat)
  | copy
  | patrol
  deriving DecidableEq, Repr

/-- An entry of the outstanding downstream table (R52). -/
structure OutEntry where
  owner : Owner
  block : Nat
  quad : Nat
  firstLine : Nat
  size : Size
  dir : Access
  deriving DecidableEq, Repr

/-- A message from the part to the memory controller (R50, 11.1). -/
inductive DownMessage
  | read (tag : Tag) (sizeCode : BitVec 2) (addr : Addr)
  | write (tag : Tag) (sizeCode : BitVec 2) (addr : Addr) (beats : List WriteLine)
  deriving DecidableEq, Repr

/-- The arbiter: downstream credits (R51), outstanding downstream table in the order of grants, next-tag pointer (R52),
background wait count (R55), and whether the link is out of reset (R63). -/
structure Arbiter where
  credits : Nat
  outstanding : List (Tag × OutEntry)
  nextTag : Tag
  bgWait : Nat
  linkUp : Bool
  deriving DecidableEq, Repr

/-! ### Migration unit (chapter 4) -/

/-- The origin of a retire request; AUTO carries its triggering block (R65). -/
inductive Origin
  | auto (trigger : Nat)
  | manual
  deriving DecidableEq, Repr

/-- A retire request (R65). -/
structure RetireRequest where
  l : Nat
  origin : Origin
  retry : Nat
  enqueued : Epoch
  deriving DecidableEq, Repr

/-- What a migration is from its start on: the request, source block S and target spare T (R70). -/
structure Move where
  req : RetireRequest
  source : Nat
  target : Nat
  deriving DecidableEq, Repr

/-- The copy tag and the copy deadline (R70). -/
structure InFlight where
  tag : Tag
  deadline : Nat
  deriving DecidableEq, Repr

/-- The lock on quad P with its phase; a copy request is offered while the phase holds no copy tag (R70, R78, R80). -/
inductive Lock
  | claimed
  | reading (copy : Option InFlight)
  | writing (buffer : List WriteLine) (copy : Option InFlight)
  deriving DecidableEq, Repr

/-- The migration context (R70). FINISHING has P = 64 and no lock. -/
inductive Context
  | idle
  | copying (m : Move) (p : Nat) (lock : Option Lock)
  | finishing (m : Move)
  deriving DecidableEq, Repr

/-- The cause of a target failure (R86). -/
inductive TargetCause
  | writeFail | writeTimeout | errorLimit
  deriving DecidableEq, Repr

/-- A target failure report: the spare it names and the cause (R86). One that a RETIRE firing sends carries the firing's
number (R111, log 13). -/
structure FailureReport where
  spare : Nat
  cause : TargetCause
  firing : Option Nat := none
  deriving DecidableEq, Repr

/-- The migration unit: waiting list from head to tail (R65), context (R70), a start event not yet taken (R71), and the
target failure reports not yet taken (R86). -/
structure MigrationUnit where
  waiting : List RetireRequest
  context : Context
  startEvent : Bool
  failures : List FailureReport
  deriving DecidableEq, Repr

/-! ### Error watch unit (chapter 5) -/

/-- The status of one item of a status report (R100). -/
inductive ItemStatus
  | ok | corrected | uncorrectable | failed
  deriving DecidableEq, Repr

/-- A status report: block, quad, and one item for each line of the read, naming the quad line (R61, R100). -/
structure StatusReport where
  block : Nat
  quad : Nat
  items : List (Nat × ItemStatus)
  deriving DecidableEq, Repr

/-- An entry of the suspect table (R99). -/
structure Suspect where
  block : Nat
  ce : Nat
  ue : Nat
  first : Epoch
  last : Epoch
  ceFired : Bool
  ueFired : Bool
  denied : Bool
  deriving DecidableEq, Repr

/-- The error watch unit: suspect table by position, full-reported flag (R99), decay timer count (R98), and the status reports not
yet taken (R100). Two fields are the model's own: `decayDue`, a decay expiry that the count has reached and that has not been
taken (R98, R114, log 21), and `firings`, the count of the RETIRE firings whose class asks for a retirement or a target
failure, which numbers their records (log 13). -/
structure WatchUnit where
  suspects : List (Option Suspect)
  fullReported : Bool
  decayCount : Nat
  decayDue : Bool
  reports : List StatusReport
  firings : Nat
  deriving DecidableEq, Repr

/-! ### Patrol unit (chapter 6) -/

/-- The patrol state with the fields present in it (R121). -/
inductive PatrolState
  | off
  | gap (count : Nat)
  | seeking
  | offered (block quad : Nat)
  | reading (block quad : Nat) (tag : Tag) (deadline : Nat)
  deriving DecidableEq, Repr

/-- The patrol unit: its state and the cursor (R121). -/
structure PatrolUnit where
  state : PatrolState
  block : Nat
  quad : Nat
  deriving DecidableEq, Repr

/-! ### Fuse unit (chapter 8) -/

/-- The kind of a fuse record (R150). -/
inductive FuseKind
  | map | ban
  deriving DecidableEq, Repr

/-- A fuse record (R150). -/
inductive FuseRecord
  | map (l s : Nat)
  | ban (s : Nat)
  deriving DecidableEq, Repr

/-- The causes of a FUSE_SPOILED record (R136). -/
inductive LoadCause
  | torn | check | range | conflict
  deriving DecidableEq, Repr

/-- The causes of a SPOILED slot: those of the load, and VERIFY (R149). -/
inductive SpoilCause
  | load (cause : LoadCause)
  | verify
  deriving DecidableEq, Repr

/-- The state of a fuse slot (R149). -/
inductive SlotKind
  | blank
  | valid
  | spoiled (cause : SpoilCause)
  deriving DecidableEq, Repr

/-- The slot image of one slot: bits, state, and whether its record was applied at load (R149). -/
structure SlotImage where
  bits : FuseWord
  kind : SlotKind
  applied : Option Bool
  deriving DecidableEq, Repr

/-- LOADING or READY (R149). -/
inductive PartState
  | loading | ready
  deriving DecidableEq, Repr

/-- The programmer with the fields present in its state (R149): slot, record, timer in milliseconds. `reported` is the bits
the fuse array has reported programmed so far (R163). -/
inductive Programmer
  | idle
  | programming (slot : Nat) (record : FuseRecord) (timer : Nat) (reported : FuseWord)
  | verifying (slot : Nat) (record : FuseRecord) (timer : Nat)
  deriving DecidableEq, Repr

/-- The fuse unit (R149). -/
structure FuseUnit where
  part : PartState
  capacity : Option Capacity
  images : List (Option SlotImage)
  appendPtr : Option Nat
  programmer : Programmer
  deriving DecidableEq, Repr

/-! ### Record unit (chapter 7) -/

/-- The cause of a CE_LIMIT or UE_LIMIT record (R136). -/
inductive LimitCause
  | none | queueFull
  deriving DecidableEq, Repr

/-- The cause of MIG_ABORTED (R136). -/
inductive AbortCause
  | manual | portReset
  deriving DecidableEq, Repr

/-- The cause of MIG_FAILED (R136). -/
inductive MigFailCause
  | timeout | retries
  deriving DecidableEq, Repr

/-- The cause of SPARE_BANNED (R136). -/
inductive BanCause
  | patrol | errorLimit
  deriving DecidableEq, Repr

/-- The origin of RESP_TIMEOUT (R136). -/
inductive TimeoutOrigin
  | request | patrol
  deriving DecidableEq, Repr

/-- The kinds of fault records with their operands (R136). -/
inductive RecordBody
  | ceLimit (p : Nat) (l : Option Nat) (count : Nat) (cause : LimitCause)
  | ueLimit (p : Nat) (l : Option Nat) (count : Nat) (cause : LimitCause)
  | copyPoison (l line s : Nat)
  | migDone (l s t : Nat)
  | migAborted (l : Nat) (cause : AbortCause)
  | migFailed (l : Nat) (cause : MigFailCause)
  | targetBad (l t : Nat) (cause : TargetCause)
  | noSpare (l : Nat)
  | spareBanned (s : Nat) (cause : BanCause)
  | respTimeout (origin : TimeoutOrigin) (p : Nat)
  | lateResponse (p : Nat)
  | fuseDone (slot s : Nat) (kind : FuseKind)
  | fuseFailed (slot s : Nat)
  | fuseSpoiled (slot : Nat) (cause : LoadCause)
  | suspectFull (p : Nat)
  deriving DecidableEq, Repr

/-- The units that produce records (R136). -/
inductive Producer
  | watch | migration | patrol | request | fuse
  deriving DecidableEq, Repr

/-- The actions of CE_ACTION and UE_ACTION (R189). -/
inductive Action
  | none | log | alert | retire
  deriving DecidableEq, Repr

/-- A record handed to the record unit and not yet taken (R137); a limit record carries its firing action (R139). The limit
record of a firing and the TARGET_BAD it brings about carry the firing's number (R108, log 13). -/
structure Handed where
  producer : Producer
  body : RecordBody
  action : Option Action
  firing : Option Nat := none
  deriving DecidableEq, Repr

/-- A stored fault record (R135). -/
structure FaultRecord where
  seq : Seq
  epoch : Epoch
  alert : Bool
  missed : Nat
  body : RecordBody
  deriving DecidableEq, Repr

/-- The record unit (R135), with the drive state of ALERT_N (R145) and the records handed and not yet taken (R137). -/
structure RecordUnit where
  queue : List FaultRecord
  nextSeq : Seq
  missed : Nat
  alertMissed : Bool
  alertLow : Bool
  handed : List Handed
  deriving DecidableEq, Repr

/-! ### Management port (chapter 9) -/

/-- The result codes (R179). -/
inductive ResultCode
  | ok | accepted | busy | state | range | full | already | locked | noSlot | none | tooLate | unknown | frame
  | notReady
  deriving DecidableEq, Repr

/-- The held result (R179); the payload length is the payload's. -/
structure HeldResult where
  command : Byte
  result : ResultCode
  payload : List Byte
  deriving DecidableEq, Repr

/-- REARM_MODE (R189). -/
inductive RearmMode
  | manual | auto
  deriving DecidableEq, Repr

/-- The parameter set (R189). -/
structure Params where
  ceLimit : Nat
  ueLimit : Nat
  ceAction : Action
  ueAction : Action
  rearmMode : RearmMode
  decayPeriod : Nat
  patrolGap : Nat
  bgShare : Nat
  respTimeout : Nat
  retryLimit : Nat
  alertKinds : BitVec 16
  deriving DecidableEq, Repr

/-- MCS_N between two commands: high, or low since the rise of PWR_OK with no frame open (R173). Low with a frame open is no
state between two commands, since a frame is taken whole at the rise of MCS_N that ends it (log 10). -/
inductive McsLine
  | high | lowNoFrame
  deriving DecidableEq, Repr

/-- MCS_N as the rise of PWR_OK finds it (R173). -/
def McsLine.found (high : Bool) : McsLine := if high then .high else .lowNoFrame

/-- The drive of MSO: high impedance, or driven (R178). -/
inductive MsoDrive
  | highZ | driven
  deriving DecidableEq, Repr

/-- The management port: held result and parameter set (R179, R189), the level of MCS_N (R173), the drive of MSO (R178, R196),
and the bytes MSO was driven with in the frame last ended, none before the first (R178). -/
structure MgmtPort where
  result : HeldResult
  params : Params
  mcs : McsLine
  mso : MsoDrive
  sent : Option (List Byte)
  deriving DecidableEq, Repr

/-! ### The whole part -/

/-- The clocks: epoch (R97), microseconds since power-on, and the microsecond of the next 1 ms tick (log 25). -/
structure Clock where
  epoch : Epoch
  now : Nat
  tickAt : Nat
  deriving DecidableEq, Repr

/-- The state of the part, unit by unit. `upSent` and `downSent` are the messages placed on the two links since power-on,
oldest first (log 18). `pending` is the queue of commands that wait. -/
structure State where
  pwrOk : Bool
  prstN : Bool
  fwe : Bool
  fuseArray : List FuseWord
  clock : Clock
  table : List Entry
  req : RequestUnit
  arb : Arbiter
  mig : MigrationUnit
  watch : WatchUnit
  patrol : PatrolUnit
  recs : RecordUnit
  fuse : FuseUnit
  port : MgmtPort
  upSent : List UpMessage
  downSent : List DownMessage
  pending : List Instr
  deriving DecidableEq, Repr

/-- The parameter defaults of R189; ALERT_KINDS is 0x73E0 (R202). -/
def Params.defaults : Params where
  ceLimit := 24
  ueLimit := 1
  ceAction := .alert
  ueAction := .retire
  rearmMode := .manual
  decayPeriod := 600
  patrolGap := 200
  bgShare := 16
  respTimeout := 2000
  retryLimit := 2
  alertKinds := 0x73E0#16

/-- Every unit at its value at the rise of PWR_OK, before LOADING samples or reads anything (R153; R18, R46, R64, R96, R120,
R134, R147, R196), over a given fuse array, pin levels and queue. No frame is open and MSO is at high impedance (R196). -/
def State.atRise (fuseArray : List FuseWord) (prstN fwe : Bool) (mcs : McsLine) (pending : List Instr) : State where
  pwrOk := true
  prstN := prstN
  fwe := fwe
  fuseArray := fuseArray
  clock := { epoch := 0#32, now := 0, tickAt := 1000 }
  table := List.replicate Config.spares .free
  req := { credits := 0, slots := List.replicate Config.trackerSlots none, relay := [], hold := [] }
  arb := { credits := 0, outstanding := [], nextTag := 0#8, bgWait := 0, linkUp := false }
  mig := { waiting := [], context := .idle, startEvent := false, failures := [] }
  watch :=
    { suspects := List.replicate Config.suspectPositions none, fullReported := false, decayCount := 0, decayDue := false,
      reports := [], firings := 0 }
  patrol := { state := .off, block := 0, quad := 0 }
  recs := { queue := [], nextSeq := 0#16, missed := 0, alertMissed := false, alertLow := false, handed := [] }
  fuse :=
    { part := .loading, capacity := none, images := List.replicate Config.fuseSlots none, appendPtr := none,
      programmer := .idle }
  port :=
    { result := { command := 0#8, result := .none, payload := [] }, params := Params.defaults, mcs := mcs, mso := .highZ,
      sent := none }
  upSent := []
  downSent := []
  pending := pending

/-- The part right after the rise of PWR_OK, in LOADING, before CAP[1:0] is sampled (R153, log 1). The fuse array and the
levels of PRST_N, FWE and MCS_N are the model's choice (log 2, log 3). -/
def State.reset : State := State.atRise Config.resetFuseArray Config.resetPrstN Config.resetFwe (McsLine.found Config.resetMcs) []

end Sys2Proof.Machine
end

