-- ==== Sys2Proof/Machine/Operands.lean ====
section
/-! DEFINITION. What the operands of the commands mean: addresses divided by R2, sizes and codes of 11.1, the form check of a
downstream response, the parameter identifiers and ranges, and the numbers of the enumerations in the payloads. -/

namespace Sys2Proof.Machine

/-! ### Addresses (R1, R2, R3) -/

/-- The capacity the straps CAP[1:0] select (R1). -/
def Capacity.ofStraps (cap : BitVec 2) : Capacity :=
  if cap = 0#2 then .gib2 else if cap = 1#2 then .gib4 else if cap = 2#2 then .gib8 else .gib16

/-- The number of physical blocks C (R1). -/
def Capacity.blocks : Capacity → Nat
  | .gib2 => 131072
  | .gib4 => 262144
  | .gib8 => 524288
  | .gib16 => 1048576

/-- The block number of an address (R2). -/
def blockOf (a : Addr) : Nat := a.toNat / 16384

/-- The offset of an address within its block (R2). -/
def offsetOf (a : Addr) : Nat := a.toNat % 16384

/-- The quad of an address (R2). -/
def quadOf (a : Addr) : Nat := offsetOf a / 256

/-- The line of an address within its quad (R2). -/
def lineOf (a : Addr) : Nat := offsetOf a % 256 / 64

/-- The downstream address of an offset in physical block p (R2). -/
def physAddr (p offset : Nat) : Addr := BitVec.ofNat 34 (p * 16384 + offset)

/-- The downstream address of a background request: quad q of physical block p (R2). -/
def quadAddr (p q : Nat) : Addr := physAddr p (q * 256)

/-! ### Sizes (11.1) -/

/-- The number of lines of a size. -/
def Size.lines : Size → Nat
  | .one => 1
  | .two => 2
  | .four => 4

/-- The size code of a size (11.1). -/
def Size.code : Size → BitVec 2
  | .one => 0#2
  | .two => 1#2
  | .four => 2#2

/-- The size a size code stands for; 3 is not a size (11.1). -/
def Size.ofCode (c : BitVec 2) : Option Size :=
  if c = 0#2 then some .one else if c = 1#2 then some .two else if c = 2#2 then some .four else none

/-! ### Line statuses and the form of a response (R62, R198) -/

/-- The side field of a line status (11.1). -/
def LineStatus.code : LineStatus → BitVec 2
  | .ok => 0#2
  | .corrected => 1#2
  | .uncorrectable => 2#2

/-- The line status a side field stands for; 3 is not a status (11.1). -/
def LineStatus.ofCode (c : BitVec 2) : Option LineStatus :=
  if c = 0#2 then some .ok else if c = 1#2 then some .corrected else if c = 2#2 then some .uncorrectable else none

/-- The lines of a DATA response, if every side field is a status. -/
def readLines : List ReadBeat → Option (List ReadLine)
  | [] => some []
  | b :: bs =>
    match LineStatus.ofCode b.side, readLines bs with
    | some st, some ls => some ({ data := b.data, status := st } :: ls)
    | _, _ => none

/-- The answer a response is taken as for its entry: as its form says when it matches the entry, FAILED otherwise (R62,
R198). Status codes: 0 DATA, 1 DONE, 2 FAILED, 3 not a status (11.1). -/
def answerOf (e : OutEntry) (status : BitVec 2) (beats : List ReadBeat) : Answer :=
  match e.dir with
  | .read =>
    if status = 0#2 ∧ beats.length = e.size.lines then
      match readLines beats with
      | some ls => .data ls
      | none => .failed
    else .failed
  | .write => if status = 1#2 ∧ beats = [] then .done else .failed

/-- The item status of a line status (R61). -/
def LineStatus.item : LineStatus → ItemStatus
  | .ok => .ok
  | .corrected => .corrected
  | .uncorrectable => .uncorrectable

/-- The status report of a READ entry's answer: one item for each line, naming the quad line; FAILED for each line when the
read failed (R61). -/
def reportOf (e : OutEntry) (a : Answer) : StatusReport :=
  { block := e.block, quad := e.quad,
    items :=
      match a with
      | .data ls => (ls.zipIdx e.firstLine).map fun x => (x.2, x.1.status.item)
      | _ => (List.range e.size.lines).map fun i => (e.firstLine + i, .failed) }

/-- The beat of a line sent upstream, with the status received (R38, R197). -/
def ReadLine.beat (l : ReadLine) : ReadBeat := { data := l.data, side := l.status.code }

/-! ### Upstream response codes (11.1) -/

/-- The two-bit status of an upstream response header. -/
def UpStatus.code : UpStatus → BitVec 2
  | .done => 0#2
  | .failed => 1#2
  | .timeout => 2#2
  | .rejected _ => 3#2

/-- The two-bit reason of an upstream response header: 0 unless REJECTED. -/
def UpStatus.reason : UpStatus → BitVec 2
  | .rejected .overrun => 0#2
  | .rejected .tagInUse => 1#2
  | .rejected .align => 2#2
  | .rejected .range => 3#2
  | _ => 0#2

/-- The fields of an upstream message's header, in the order of 11.1, the four-bit type first. -/
def UpMessage.header : UpMessage → List (Nat × Nat)
  | .response tag status sizeCode _ =>
    [(4, 8), (8, tag.toNat), (2, status.code.toNat), (2, status.reason.toNat), (2, sizeCode.toNat), (6, 0)]
  | .credit count => [(4, 9), (8, count.toNat)]

/-- The fields of a downstream request's header, in the order of 11.1, the four-bit type first: each a width and a value. -/
def DownMessage.header : DownMessage → List (Nat × Nat)
  | .read tag sizeCode addr => [(4, 1), (8, tag.toNat), (2, sizeCode.toNat), (34, addr.toNat)]
  | .write tag sizeCode addr _ => [(4, 2), (8, tag.toNat), (2, sizeCode.toNat), (34, addr.toNat)]

/-! ### Parameters (R189, R190, R202) -/

/-- The eleven parameters (R189). -/
inductive Param
  | ceLimit | ueLimit | ceAction | ueAction | rearmMode | decayPeriod | patrolGap | bgShare | respTimeout
  | retryLimit | alertKinds
  deriving DecidableEq, Repr

/-- The parameter of an identifier (R202). -/
def Param.ofId (id : Nat) : Option Param :=
  match id with
  | 1 => some .ceLimit
  | 2 => some .ueLimit
  | 3 => some .ceAction
  | 4 => some .ueAction
  | 5 => some .rearmMode
  | 6 => some .decayPeriod
  | 7 => some .patrolGap
  | 8 => some .bgShare
  | 9 => some .respTimeout
  | 10 => some .retryLimit
  | 11 => some .alertKinds
  | _ => none

/-- Actions as numbers: NONE 0, LOG 1, ALERT 2, RETIRE 3 (R202). -/
def Action.number : Action → Nat
  | .none => 0
  | .log => 1
  | .alert => 2
  | .retire => 3

/-- The action of a number (R202). -/
def Action.ofNumber (n : Nat) : Action :=
  if n = 0 then .none else if n = 1 then .log else if n = 2 then .alert else .retire

/-- REARM_MODE as a number: MANUAL 0, AUTO 1 (R202). -/
def RearmMode.number : RearmMode → Nat
  | .manual => 0
  | .auto => 1

/-- The REARM_MODE of a number (R202). -/
def RearmMode.ofNumber (n : Nat) : RearmMode := if n = 0 then .manual else .auto

/-- The two-byte value a parameter holds (R191). -/
def Params.value (ps : Params) : Param → Nat
  | .ceLimit => ps.ceLimit
  | .ueLimit => ps.ueLimit
  | .ceAction => ps.ceAction.number
  | .ueAction => ps.ueAction.number
  | .rearmMode => ps.rearmMode.number
  | .decayPeriod => ps.decayPeriod
  | .patrolGap => ps.patrolGap
  | .bgShare => ps.bgShare
  | .respTimeout => ps.respTimeout
  | .retryLimit => ps.retryLimit
  | .alertKinds => ps.alertKinds.toNat

/-- Whether a two-byte value is in range for a parameter (R190). -/
def Param.inRange (p : Param) (v : Nat) : Bool :=
  match p with
  | .ceLimit | .ueLimit => decide (1 ≤ v ∧ v ≤ 255)
  | .ceAction | .ueAction => decide (v ≤ 3)
  | .rearmMode => decide (v ≤ 1)
  | .decayPeriod | .patrolGap => decide (v ≤ 65535)
  | .bgShare => decide (1 ≤ v ∧ v ≤ 64)
  | .respTimeout => decide (16 ≤ v ∧ v ≤ 65535)
  | .retryLimit => decide (v ≤ 3)
  | .alertKinds => decide (v < 32768)

/-- The parameter set with one parameter written (R192). -/
def Params.write (ps : Params) (p : Param) (v : Nat) : Params :=
  match p with
  | .ceLimit => { ps with ceLimit := v }
  | .ueLimit => { ps with ueLimit := v }
  | .ceAction => { ps with ceAction := .ofNumber v }
  | .ueAction => { ps with ueAction := .ofNumber v }
  | .rearmMode => { ps with rearmMode := .ofNumber v }
  | .decayPeriod => { ps with decayPeriod := v }
  | .patrolGap => { ps with patrolGap := v }
  | .bgShare => { ps with bgShare := v }
  | .respTimeout => { ps with respTimeout := v }
  | .retryLimit => { ps with retryLimit := v }
  | .alertKinds => { ps with alertKinds := BitVec.ofNat 16 v }

/-! ### Numbers of the enumerations in payloads (R201, 11.3, 11.4) -/

/-- The value of a result code (11.3). -/
def ResultCode.byte : ResultCode → Byte
  | .ok => 0x00#8
  | .accepted => 0x01#8
  | .busy => 0x02#8
  | .state => 0x03#8
  | .range => 0x04#8
  | .full => 0x05#8
  | .already => 0x06#8
  | .locked => 0x07#8
  | .noSlot => 0x08#8
  | .none => 0x09#8
  | .tooLate => 0x0A#8
  | .unknown => 0x0B#8
  | .frame => 0x0C#8
  | .notReady => 0x0D#8

/-- FREE 0, RESERVED 1, SOFT 2, HARD 3, RETIRED 4 (R201). -/
def Entry.number : Entry → Nat
  | .free => 0
  | .reserved _ => 1
  | .soft _ _ => 2
  | .hard _ _ => 3
  | .retired _ _ _ _ => 4

/-- IDLE 0, COPYING 1, FINISHING 2 (R201). -/
def Context.number : Context → Nat
  | .idle => 0
  | .copying _ _ _ => 1
  | .finishing _ => 2

/-- CLAIMED 0, READING 1, WRITING 2 (R201). -/
def Lock.number : Lock → Nat
  | .claimed => 0
  | .reading _ => 1
  | .writing _ _ => 2

/-- AUTO 0, MANUAL 1 (R201). -/
def Origin.number : Origin → Nat
  | .auto _ => 0
  | .manual => 1

/-- The triggering block of a request, present for AUTO (R65). -/
def Origin.trigger? : Origin → Option Nat
  | .auto p => some p
  | .manual => none

/-- The class numbers of R201. -/
def BlockClass.number : BlockClass → Nat
  | .homeInUse _ => 0
  | .homeRemapped => 1
  | .freeSpare _ => 2
  | .migrationTarget _ => 3
  | .servingSpare _ _ => 4
  | .retiredSpare _ => 5

/-- The logical block a class serves (R8). -/
def BlockClass.served? : BlockClass → Option Nat
  | .homeInUse l => some l
  | .servingSpare _ l => some l
  | _ => none

/-- BLANK 0, VALID 1, SPOILED 2 (R201). -/
def SlotKind.number : SlotKind → Nat
  | .blank => 0
  | .valid => 1
  | .spoiled _ => 2

/-- TORN 0, CHECK 1, RANGE 2, CONFLICT 3 (R201, 11.4). -/
def LoadCause.number : LoadCause → Nat
  | .torn => 0
  | .check => 1
  | .range => 2
  | .conflict => 3

/-- The fuse causes of R201: VERIFY is 4. -/
def SpoilCause.number : SpoilCause → Nat
  | .load c => c.number
  | .verify => 4

/-- MAP 0, BAN 1 (R201). -/
def FuseKind.number : FuseKind → Nat
  | .map => 0
  | .ban => 1

/-- IDLE 0, PROGRAMMING 1, VERIFYING 2 (R201). -/
def Programmer.number : Programmer → Nat
  | .idle => 0
  | .programming _ _ _ _ => 1
  | .verifying _ _ _ => 2

/-- The slot of a programming in progress (R149). -/
def Programmer.slot? : Programmer → Option Nat
  | .idle => none
  | .programming slot _ _ _ => some slot
  | .verifying slot _ _ => some slot

/-- The record of a programming in progress (R149). -/
def Programmer.record? : Programmer → Option FuseRecord
  | .idle => none
  | .programming _ record _ _ => some record
  | .verifying _ record _ => some record

/-- OFF 0, GAP 1, SEEKING 2, OFFERED 3, READING 4 (R201). -/
def PatrolState.number : PatrolState → Nat
  | .off => 0
  | .gap _ => 1
  | .seeking => 2
  | .offered _ _ => 3
  | .reading _ _ _ _ => 4

/-- LOADING 0, READY 1 (R201). -/
def PartState.number : PartState → Nat
  | .loading => 0
  | .ready => 1

/-- The spare a fuse record names. -/
def FuseRecord.spare : FuseRecord → Nat
  | .map _ s => s
  | .ban s => s

/-- The kind of a fuse record. -/
def FuseRecord.kind : FuseRecord → FuseKind
  | .map _ _ => .map
  | .ban _ => .ban

end Sys2Proof.Machine
end

