-- ==== Sys2Proof/Machine/Flags.lean ====
section
/-! DEFINITION. Every flag the part computes: the alert flag of a record and the drive of ALERT_N (R139, R145), when a limit
class fires (R106), the test of an eviction candidate (R102), the deferral of a request (R67), and the flag bytes of the
payloads (R201). -/

namespace Sys2Proof.Machine

/-- One bit of a flag byte. -/
def flagBit (b : Bool) (i : Nat) : Nat := if b then 2 ^ i else 0

/-! ### Records (R139, R145, 11.4) -/

/-- The kind code of a record (11.4). -/
def RecordBody.kindCode : RecordBody → Nat
  | .ceLimit _ _ _ _ => 0
  | .ueLimit _ _ _ _ => 1
  | .copyPoison _ _ _ => 2
  | .migDone _ _ _ => 3
  | .migAborted _ _ => 4
  | .migFailed _ _ => 5
  | .targetBad _ _ _ => 6
  | .noSpare _ => 7
  | .spareBanned _ _ => 8
  | .respTimeout _ _ => 9
  | .lateResponse _ => 10
  | .fuseDone _ _ _ => 11
  | .fuseFailed _ _ => 12
  | .fuseSpoiled _ _ => 13
  | .suspectFull _ => 14

/-- Whether a record is a CE_LIMIT or a UE_LIMIT. -/
def RecordBody.isLimit : RecordBody → Bool
  | .ceLimit _ _ _ _ => true
  | .ueLimit _ _ _ _ => true
  | _ => false

/-- The alert flag a handed record's kind calls for: by the firing action for a limit record, by ALERT_KINDS as it stands for
every other kind (R139). -/
def alertCalled (alertKinds : BitVec 16) (h : Handed) : Bool :=
  if h.body.isLimit then h.action == some .alert else alertKinds.getLsbD h.body.kindCode

/-- ALERT_N is driven low while the queue holds a record with its alert flag set or the alert-missed flag is set (R145). -/
def alertDrive (queue : List FaultRecord) (alertMissed : Bool) : Bool := queue.any (·.alert) || alertMissed

/-- The fault record queue is full (R138, R140). -/
def RecordUnit.isFull (r : RecordUnit) : Bool := decide (Config.recordPlaces ≤ r.queue.length)

/-! ### Suspect entries (R102, R106, R113, R201) -/

/-- A limit class: CE or UE. -/
inductive LimitClass
  | ce | ue
  deriving DecidableEq, Repr

/-- The count of a class. -/
def Suspect.count (e : Suspect) : LimitClass → Nat
  | .ce => e.ce
  | .ue => e.ue

/-- The fired flag of a class. -/
def Suspect.fired (e : Suspect) : LimitClass → Bool
  | .ce => e.ceFired
  | .ue => e.ueFired

/-- The limit of a class (R106). -/
def Params.limit (ps : Params) : LimitClass → Nat
  | .ce => ps.ceLimit
  | .ue => ps.ueLimit

/-- The action of a class (R106). -/
def Params.action (ps : Params) : LimitClass → Action
  | .ce => ps.ceAction
  | .ue => ps.ueAction

/-- A class fires when its count is at or above its limit and its fired flag is false (R106). -/
def Suspect.fires (e : Suspect) (ps : Params) (c : LimitClass) : Bool :=
  decide (ps.limit c ≤ e.count c) && !(e.fired c)

/-- An eviction candidate: both fired flags false (R103). -/
def Suspect.candidate (e : Suspect) : Bool := !e.ceFired && !e.ueFired

/-- Freed by a decay expiry: no fired flag and both counts 0 (R113). -/
def Suspect.decayed (e : Suspect) : Bool := e.candidate && e.ce == 0 && e.ue == 0

/-- The flag byte of a suspect entry, bits 0 to 2 (R201, READ_SUSPECT and CLEAR_SUSPECT). -/
def Suspect.flags (e : Suspect) : Nat := flagBit e.ceFired 0 + flagBit e.ueFired 1 + flagBit e.denied 2

/-! ### Remap entries (R4, R201) -/

/-- The logical block of an entry, where present (R4). -/
def Entry.l? : Entry → Option Nat
  | .free => none
  | .reserved l => some l
  | .soft l _ => some l
  | .hard l _ => some l
  | .retired l _ _ _ => l

/-- The fuse slot of an entry, where present (R4). -/
def Entry.slot? : Entry → Option Nat
  | .hard _ k => some k
  | .retired _ k _ _ => k
  | _ => none

/-- The banned flag of an entry (R4). -/
def Entry.banned : Entry → Bool
  | .retired _ _ b _ => b
  | _ => false

/-- The commit pending flag of an entry (R4). -/
def Entry.commitPending : Entry → Bool
  | .soft _ c => c
  | .retired _ _ _ c => c
  | _ => false

/-- The logical block an entry serves: in SOFT and HARD (R6). -/
def Entry.serves? : Entry → Option Nat
  | .soft l _ => some l
  | .hard l _ => some l
  | _ => none

/-- The flag byte of READ_MAP (R201). -/
def Entry.flags (e : Entry) (traffic : Bool) : Nat :=
  flagBit e.l?.isSome 0 + flagBit e.slot?.isSome 1 + flagBit e.banned 2 + flagBit e.commitPending 3 + flagBit traffic 4

end Sys2Proof.Machine
end

