-- ==== Sys2Proof/Machine/Ops.lean ====
section
/-! DEFINITION. The named operations that several units share: the spares' numbers, the questions put to the map unit and to
the outstanding downstream table, messages on the links, handing a record, the passing of time, and the two instructions
to the error watch unit. A block has no exception entry; what an event raises is a record, handed here. -/

namespace Sys2Proof.Machine

/-! ### Being powered (R153) -/

/-- While PWR_OK is low the part takes no event (R153): the state stays as it is. -/
def powered (s : State) (f : State → State) : State := if s.pwrOk then f s else s

/-! ### Capacity and spares (R1, R3) -/

/-- The capacity C, 0 before CAP[1:0] has been sampled (log 26). -/
def State.capacityBlocks (s : State) : Nat :=
  match s.fuse.capacity with
  | some c => c.blocks
  | none => 0

/-- The logical limit C - 128 (R1). -/
def State.limit (s : State) : Nat := s.capacityBlocks - Config.spares

/-- The part is READY (R157). -/
def State.isReady (s : State) : Bool := s.fuse.part == .ready

/-- The parameter set. -/
def State.params (s : State) : Params := s.port.params

/-! ### The remap table (R4, R6, R8) -/

/-- The entry of spare k. -/
def entryAt (t : List Entry) (k : Nat) : Entry := t.getD k .free

/-- The spare whose entry is SOFT and names L. -/
def softFor (t : List Entry) (l : Nat) : Option Nat :=
  t.findIdx? fun e =>
    match e with
    | .soft l' _ => l' == l
    | _ => false

/-- The spare whose entry is HARD and names L. -/
def hardFor (t : List Entry) (l : Nat) : Option Nat :=
  t.findIdx? fun e =>
    match e with
    | .hard l' _ => l' == l
    | _ => false

/-- The translation of L: the SOFT spare naming it, else the HARD one, else home block L (R6). -/
def translate (limit : Nat) (t : List Entry) (l : Nat) : Nat :=
  match softFor t l with
  | some k => limit + k
  | none =>
    match hardFor t l with
    | some k => limit + k
    | none => l

/-- The classification of physical block p (R8). -/
def classify (limit : Nat) (t : List Entry) (p : Nat) : BlockClass :=
  if p < limit then
    if (softFor t p).isSome || (hardFor t p).isSome then .homeRemapped else .homeInUse p
  else
    match entryAt t (p - limit) with
    | .free => .freeSpare (p - limit)
    | .reserved _ => .migrationTarget (p - limit)
    | .soft l _ => .servingSpare (p - limit) l
    | .hard l _ => .servingSpare (p - limit) l
    | .retired _ _ _ _ => .retiredSpare (p - limit)

/-- The translation taken against the state. -/
def State.translate (s : State) (l : Nat) : Nat := Machine.translate s.limit s.table l

/-- The classification taken against the state. -/
def State.classify (s : State) (p : Nat) : BlockClass := Machine.classify s.limit s.table p

/-- The state with entry k of the remap table replaced. -/
def State.setEntry (s : State) (k : Nat) (e : Entry) : State := { s with table := s.table.set k e }

/-! ### The outstanding downstream table (R53) -/

/-- Physical block p has an entry of any owner and direction (R9, R53). -/
def State.blockInFlight (s : State) (p : Nat) : Bool := s.arb.outstanding.any fun x => x.2.block == p

/-- Spare k has traffic in flight (R9). -/
def State.spareInFlight (s : State) (k : Nat) : Bool := s.blockInFlight (s.limit + k)

/-- An entry of a request-path write. -/
def OutEntry.isRequestWrite (e : OutEntry) : Bool :=
  match e.owner, e.dir with
  | .request _, .write => true
  | _, _ => false

/-- A request-path write is outstanding to quad q of block p (R53). -/
def State.writeToQuad (s : State) (p q : Nat) : Bool :=
  s.arb.outstanding.any fun x => x.2.isRequestWrite && x.2.block == p && x.2.quad == q

/-- A request-path write is outstanding to block p (R53). -/
def State.writeToBlock (s : State) (p : Nat) : Bool :=
  s.arb.outstanding.any fun x => x.2.isRequestWrite && x.2.block == p

/-! ### The retire queue (R65, R66, R67) -/

/-- The logical block of the active migration. -/
def Context.l? : Context → Option Nat
  | .idle => none
  | .copying m _ _ => some m.req.l
  | .finishing m => some m.req.l

/-- A migration is active: COPYING or FINISHING (R65). -/
def Context.active (c : Context) : Bool := c.l?.isSome

/-- Waiting requests, plus one while a migration is active (R65). -/
def MigrationUnit.occupancy (m : MigrationUnit) : Nat := m.waiting.length + if m.context.active then 1 else 0

/-- L is held by a waiting request. -/
def MigrationUnit.isWaiting (m : MigrationUnit) (l : Nat) : Bool := m.waiting.any fun r => r.l == l

/-- L is held by a waiting request or is the L of the active migration (R66). -/
def MigrationUnit.holds (m : MigrationUnit) (l : Nat) : Bool := m.isWaiting l || m.context.l? == some l

/-- A waiting request for L is deferred while the entry in SOFT or HARD that names L is commit pending (R67). -/
def deferred (t : List Entry) (l : Nat) : Bool := t.any fun e => e.serves? == some l && e.commitPending

/-! ### Messages on the links (R26, R38, R50) -/

/-- Places a message on the upstream link. -/
def State.sendUp (s : State) (m : UpMessage) : State := { s with upSent := s.upSent ++ [m] }

/-- Places a message on the downstream link. -/
def State.sendDown (s : State) (m : DownMessage) : State := { s with downSent := s.downSent ++ [m] }

/-! ### Handing a record (R137) -/

/-- A producing unit hands the record unit a record, with the firing action for a limit record (R137, R139), and the number of
the firing for its limit record and its TARGET_BAD (log 13). -/
def State.hand (s : State) (p : Producer) (b : RecordBody) (a : Option Action := none) (f : Option Nat := none) : State :=
  { s with
    recs := { s.recs with handed := s.recs.handed ++ [{ producer := p, body := b, action := a, firing := f }] } }

/-! ### Instructions to the error watch unit (R115) -/

/-- The position of the suspect entry for block p (R99). -/
def suspectPos (t : List (Option Suspect)) (p : Nat) : Option Nat :=
  t.findIdx? fun x =>
    match x with
    | some e => e.block == p
    | none => false

/-- Frees the suspect entry of block p and clears the full-reported flag, if an entry names p (R115, R117). -/
def State.freeSuspect (s : State) (p : Nat) : State :=
  match suspectPos s.watch.suspects p with
  | some i => { s with watch := { s.watch with suspects := s.watch.suspects.set i none, fullReported := false } }
  | none => s

/-- The suspect table with the entry of block p marked RETIRE_DENIED, if one names p. -/
def markDeniedIn (t : List (Option Suspect)) (p : Nat) : List (Option Suspect) :=
  t.map fun x => x.map fun e => if e.block = p then { e with denied := true } else e

/-- Marks RETIRE_DENIED for block p, if an entry names p (R115). -/
def State.markDenied (s : State) (p : Nat) : State :=
  { s with watch := { s.watch with suspects := markDeniedIn s.watch.suspects p } }

/-! ### The passing of time (R97, R98, R123, R149) -/

/-- The patrol unit after d microseconds: in GAP the gap count rises, up to PATROL_GAP (R121, R123). -/
def PatrolUnit.pass (p : PatrolUnit) (gap d : Nat) : PatrolUnit :=
  match p.state with
  | .gap n => { p with state := .gap (min gap (n + d)) }
  | _ => p

/-- d microseconds pass: the microsecond count and a running gap count rise. -/
def State.passMicroseconds (s : State) (d : Nat) : State :=
  { s with clock := { s.clock with now := s.clock.now + d }, patrol := s.patrol.pass s.params.patrolGap d }

/-- Time goes on to microsecond t, if t lies ahead (log 6). -/
def State.advanceTo (s : State) (t : Nat) : State := s.passMicroseconds (t - s.clock.now)

/-- The decay period in milliseconds (R98). -/
def State.decayPeriodMs (s : State) : Nat := s.params.decayPeriod * 100

/-- An entry after a decay expiry: CE halved, and freed if it has no fired flag and both counts 0 (R113). -/
def decayEntry (x : Option Suspect) : Option Suspect :=
  match x with
  | none => none
  | some e => if Suspect.decayed { e with ce := e.ce / 2 } then none else some { e with ce := e.ce / 2 }

/-- The error watch unit taking a decay expiry; the full-reported flag is cleared if an entry was freed (R99, R113). -/
def WatchUnit.decay (w : WatchUnit) : WatchUnit :=
  { w with
    suspects := w.suspects.map decayEntry
    fullReported := w.fullReported && !(w.suspects.any fun x => x.isSome && (decayEntry x).isNone)
    decayDue := false }

/-- The error watch unit taking the decay expiry that is due, if one is. -/
def WatchUnit.takeDue (w : WatchUnit) : WatchUnit := if w.decayDue then w.decay else w

/-- n decay expiries, one after the other. -/
def WatchUnit.decays (w : WatchUnit) : Nat → WatchUnit
  | 0 => w
  | n + 1 => w.decay.decays n

/-- The error watch unit after d ticks, with a decay period of that many milliseconds. At the tick on which the count reaches the
period it returns to 0 and an expiry is due, which DECAY_EXPIRY takes among the other events of that millisecond (R114), and
the next tick at the latest, before it counts. With period 0 the count is held at 0 and no expiry is taken (R98). -/
def WatchUnit.pass (w : WatchUnit) (period d : Nat) : WatchUnit :=
  if d = 0 then w
  else if period = 0 then { w with decayCount := 0, decayDue := false }
  else
    let count := w.decayCount + d
    let due := count % period == 0
    { w.takeDue.decays (if due then count / period - 1 else count / period) with
      decayCount := count % period, decayDue := due }

/-- The programmer after d milliseconds: the programming timer runs in PROGRAMMING and VERIFYING, up to 200 (R149); at the
moment it reaches 190, PROGRAMMING ends and VERIFYING starts (R163). -/
def Programmer.pass (p : Programmer) (d : Nat) : Programmer :=
  match p with
  | .idle => .idle
  | .programming slot record timer reported =>
    if timer + d < Config.programmingLimit then .programming slot record (timer + d) reported
    else .verifying slot record (min Config.programmingTimerMax (timer + d))
  | .verifying slot record timer => .verifying slot record (min Config.programmingTimerMax (timer + d))

/-- d ticks of 1 ms: the epoch rises by d and wraps (R97), the decay timer counts and its expiries are taken (R98), the
programming timer rises (R149) and ends PROGRAMMING at 190 (R163), and the microsecond scale goes on to the last of the ticks
(log 25). -/
def State.passMilliseconds (s : State) (d : Nat) : State :=
  let s1 := if d = 0 then s else s.advanceTo (s.clock.tickAt + 1000 * (d - 1))
  { s1 with
    clock :=
      { epoch := s1.clock.epoch + BitVec.ofNat 32 d, now := s1.clock.now, tickAt := s1.clock.tickAt + 1000 * d },
    watch := s1.watch.pass s1.decayPeriodMs d,
    fuse := { s1.fuse with programmer := s1.fuse.programmer.pass d } }

end Sys2Proof.Machine
end

