-- ==== Sys2Proof/Machine/Port.lean ====
section
/-! DEFINITION. The management port's own operations: replacing the held result (R180), the common checks of a command
(R182), the bytes of a read frame (R181), and the port's own commands RESULT_READ, GET_PARAM and SET_PARAM. -/

namespace Sys2Proof.Machine

/-! ### Framing (R173, R178) -/

/-- The state with MCS_N high. -/
def State.raiseMcs (s : State) : State := { s with port := { s.port with mcs := .high } }

/-- A rise of MCS_N at the port. While PWR_OK is low the port takes no event; a rise of MCS_N that was low at the rise of PWR_OK
ends no frame, whatever MSCK and MSI did, and leaves the held result (R173); any other ends a frame, handled by `f`. -/
def atPort (s : State) (f : State → State) : State :=
  powered s fun s =>
    match s.port.mcs with
    | .high => f s
    | .lowNoFrame => s.raiseMcs

/-- What an owning unit answers a command with: result code, payload, and the state after its effect. -/
structure Reply where
  result : ResultCode
  payload : List Byte
  after : State

/-- A refusal: no payload and no effect (R186). -/
def State.refuse (s : State) (r : ResultCode) : Reply := { result := r, payload := [], after := s }

/-- OK with a payload and no change of state. -/
def State.report (s : State) (payload : List Byte) : Reply := { result := .ok, payload := payload, after := s }

/-- Replaces the held result; in a frame other than a read frame every byte sent on MSO is filler, and MSO is at high
impedance from the frame's end (R178, R180). -/
def State.holdResult (s : State) (code : Byte) (r : ResultCode) (payload : List Byte) (frameLength : Nat) : State :=
  { s with
    port :=
      { result := { command := code, result := r, payload := payload }, params := s.port.params,
        mcs := s.port.mcs, mso := .highZ, sent := some (List.replicate frameLength Config.filler) } }

/-- The whole bytes of a command frame with these arguments: 2 + n + 1 (R174). -/
def frameLengthOf (args : List Byte) : Nat := args.length + 3

/-- A whole frame that carries an assigned command is executed: the part is READY, or the command is GET_STATUS; the argument
length is one the command takes; then the owning rule (R182, R184). -/
def command (c : Command) (args : List Byte) (s : State) (run : State → Reply) : State :=
  atPort s fun s =>
    if s.isReady = false ∧ c ≠ .getStatus then s.holdResult c.code .notReady [] (frameLengthOf args)
    else if args.length ∉ c.lengths then s.holdResult c.code .range [] (frameLengthOf args)
    else (run s).after.holdResult c.code (run s).result (run s).payload (frameLengthOf args)

/-! ### Reading the held result (R181) -/

/-- The bytes of the held result in a read frame: command code, result code, payload length, payload, check (R181, R200). -/
def HeldResult.bytes (h : HeldResult) : List Byte :=
  let body := h.command :: h.result.byte :: be1 h.payload.length ++ h.payload
  body ++ [crc8 body]

/-- The bytes sent on MSO in a read frame with `clocked` bytes after the third: three filler bytes, the held result, and
filler after its last byte (R178, R181). -/
def readFrameMso (h : HeldResult) (clocked : Nat) : List Byte :=
  List.replicate 3 Config.filler ++ h.bytes.take clocked ++ List.replicate (clocked - h.bytes.length) Config.filler

/-- A read frame: the held result goes out on MSO and no other state changes (R176); MSO is at high impedance from the frame's
end (R178). -/
def State.sendResult (s : State) (clocked : Nat) : State :=
  { s with port := { s.port with mso := .highZ, sent := some (readFrameMso s.port.result clocked) } }

/-- RESULT_READ: with no argument byte a read frame; with argument bytes a command frame, refused for its length while the
part is READY and answered NOT_READY during LOADING (R176, R182). -/
def resultReadEffect (args : List Byte) (clocked : Nat) (s : State) : State :=
  if args = [] then atPort s fun s => s.sendResult clocked
  else command .resultRead args s fun s => s.report []

/-! ### Parameters (R191, R192) -/

/-- GET_PARAM(id) (R191). -/
def getParamReply (id : Nat) (s : State) : Reply :=
  match Param.ofId id with
  | none => s.refuse .range
  | some p => s.report (be1 id ++ be2 (s.params.value p))

/-- Patrol is enabled while the part is READY, PRST_N is high and PATROL_GAP is not 0 (R122). -/
def State.patrolEnabled (s : State) : Bool := s.isReady && s.prstN && s.params.patrolGap != 0

/-- What a SET_PARAM of PATROL_GAP answered OK does to the patrol unit, by its state (R132); `old` is the value before. -/
def patrolGapWritten (p : PatrolState) (old new : Nat) (readyAndHigh : Bool) : PatrolState :=
  match p with
  | .off => if new ≠ 0 ∧ old = 0 ∧ readyAndHigh = true then .gap 0 else .off
  | .gap _ => if new = 0 then .off else .gap 0
  | .seeking => if new = 0 then .off else .seeking
  | .offered b q => if new = 0 then .off else .offered b q
  | .reading b q t d => .reading b q t d

/-- The two writes that act in the command's own event: DECAY_PERIOD sets the decay timer count to 0 (R98), and PATROL_GAP acts on
the patrol unit (R132). Every other write changes no unit's state (R193). An expiry that the count reached before a write of
DECAY_PERIOD is taken before it: the next expiry follows one full new period (R98, log 21). -/
def State.paramWritten (s : State) (p : Param) (old new : Nat) : State :=
  match p with
  | .decayPeriod => { s with watch := { s.watch.takeDue with decayCount := 0 } }
  | .patrolGap =>
    { s with patrol := { s.patrol with state := patrolGapWritten s.patrol.state old new (s.isReady && s.prstN) } }
  | _ => s

/-- The state with parameter p written (R192). -/
def State.writeParam (s : State) (p : Param) (v : Nat) : State :=
  { s with port := { s.port with params := s.port.params.write p v } }

/-- SET_PARAM(id, value) (R192). -/
def setParamReply (id v : Nat) (s : State) : Reply :=
  match Param.ofId id with
  | none => s.refuse .range
  | some p =>
    if p.inRange v = false then s.refuse .range
    else
      { result := .ok
        payload := be1 id ++ be2 (s.params.value p) ++ be2 ((s.params.write p v).value p)
        after := (s.writeParam p v).paramWritten p (s.params.value p) v }

/-! ### Meanings -/

/-- RESULT_READ (R176, R181). -/
def execResultRead (args : List Byte) (clocked : Nat) (s : State) : Host.Outcome State Fault Refusal :=
  .next (resultReadEffect args clocked s)

/-- GET_PARAM (R191). -/
def getParamEffect (args : List Byte) (s : State) : State := command .getParam args s (getParamReply (ofBe args))

/-- GET_PARAM (R191). -/
def execGetParam (args : List Byte) (s : State) : Host.Outcome State Fault Refusal := .next (getParamEffect args s)

/-- SET_PARAM (R192). -/
def setParamEffect (args : List Byte) (s : State) : State :=
  command .setParam args s (setParamReply (ofBe (args.take 1)) (ofBe (args.drop 1)))

/-- SET_PARAM (R192). -/
def execSetParam (args : List Byte) (s : State) : Host.Outcome State Fault Refusal := .next (setParamEffect args s)

end Sys2Proof.Machine
end

