-- ==== Sys2Proof/Machine/MapUnit.lean ====
section
/-! DEFINITION. The map unit's table changes (R10 to R17) and its four commands (R20 to R23). -/

namespace Sys2Proof.Machine

/-! ### Changes brought by the migration unit -/

/-- The spare a reserve chooses: the lowest-indexed FREE one with no traffic in flight (R10). -/
def State.eligibleSpare (s : State) : Option Nat :=
  (List.range Config.spares).find? fun k => entryAt s.table k == .free && !s.spareInFlight k

/-- The entry of a spare that leaves service: RETIRED, keeping L and its fuse slot if it has one (R11, R21). -/
def Entry.retire : Entry → Entry
  | .soft l _ => .retired (some l) none false false
  | .hard l k => .retired (some l) (some k) false false
  | e => e

/-- The table after the commit of L from source block S to spare T: T goes from RESERVED to SOFT, and a spare S is retired
(R11). -/
def commitTable (limit : Nat) (t : List Entry) (m : Move) : List Entry :=
  let t1 := t.set m.target (.soft m.req.l false)
  if m.source < limit then t1 else t1.set (m.source - limit) (entryAt t1 (m.source - limit)).retire

/-- Releases a target: from RESERVED to FREE (R12). -/
def State.releaseTarget (s : State) (k : Nat) : State := s.setEntry k .free

/-- Retires a failed target: L absent, banned false (R13). -/
def State.retireTarget (s : State) (k : Nat) : State := s.setEntry k (.retired none none false false)

/-! ### Retirement of a free spare (R14) -/

/-- The classification of spare k and its retirement as one event at the table: the entry found, and the state, changed only
if the entry is FREE (R14). -/
def State.retireIfFree (s : State) (k : Nat) : Entry × State :=
  match entryAt s.table k with
  | .free => (.free, s.setEntry k (.retired none none false false))
  | e => (e, s)

/-! ### Changes brought by the fuse unit (R16, R17) -/

/-- An entry set commit pending: SOFT for a MAP record, RETIRED for a BAN record (R16). -/
def Entry.setPending : Entry → Entry
  | .soft l _ => .soft l true
  | .retired l k b _ => .retired l k b true
  | e => e

/-- An entry with commit pending false. -/
def Entry.clearPending : Entry → Entry
  | .soft l _ => .soft l false
  | .retired l k b _ => .retired l k b false
  | e => e

/-- The entry after VERIFYING ends for a record programmed into a slot, with a match or not (R17). -/
def Entry.verified (e : Entry) (record : FuseRecord) (slot : Nat) (isMatch : Bool) : Entry :=
  if isMatch then
    match record, e with
    | .map _ _, .soft l _ => .hard l slot
    | .ban _, .retired l _ _ _ => .retired l (some slot) true false
    | _, e => e.clearPending
  else e.clearPending

/-! ### Commands (R20 to R23) -/

/-- READ_MAP(s) (R20). -/
def readMapReply (k : Nat) (s : State) : Reply :=
  if Config.spares ≤ k then s.refuse .range
  else
    let e := entryAt s.table k
    s.report
      (be1 k ++ be3 (s.limit + k) ++ be1 e.number ++ be1 (e.flags (s.spareInFlight k)) ++ be3 (e.l?.getD 0) ++
        be1 (e.slot?.getD 0))

/-- The table after MAP_SOFT(L, s): s goes from FREE to SOFT, and a HARD entry for L is retired in the same change (R21). -/
def mapSoftTable (t : List Entry) (l k : Nat) : List Entry :=
  match hardFor t l with
  | some h => (t.set h (entryAt t h).retire).set k (.soft l false)
  | none => t.set k (.soft l false)

/-- MAP_SOFT(L, s) (R21). -/
def mapSoftReply (l k : Nat) (s : State) : Reply :=
  if s.limit ≤ l ∨ Config.spares ≤ k then s.refuse .range
  else if entryAt s.table k ≠ .free then s.refuse .state
  else if s.spareInFlight k then s.refuse .busy
  else if s.mig.holds l then s.refuse .busy
  else if (softFor s.table l).isSome then s.refuse .state
  else
    { result := .ok
      payload := be1 k ++ be1 ((hardFor s.table l).getD 255)
      after := { s with table := mapSoftTable s.table l k } }

/-- UNMAP_SOFT(s) (R22). -/
def unmapSoftReply (k : Nat) (s : State) : Reply :=
  if Config.spares ≤ k then s.refuse .range
  else
    match entryAt s.table k with
    | .soft l commitPending =>
      if commitPending then s.refuse .busy
      else if s.mig.holds l then s.refuse .busy
      else { result := .ok, payload := be1 k ++ be3 l, after := s.setEntry k .free }
    | _ => s.refuse .state

/-- BAN_SPARE(s) (R23). -/
def banSpareReply (k : Nat) (s : State) : Reply :=
  if Config.spares ≤ k then s.refuse .range
  else
    match entryAt s.table k with
    | .retired _ _ _ _ => s.refuse .already
    | .free => { result := .ok, payload := be1 k, after := s.setEntry k (.retired none none false false) }
    | _ => s.refuse .state

/-! ### Meanings -/

/-- READ_MAP (R20). -/
def readMapEffect (args : List Byte) (s : State) : State := command .readMap args s (readMapReply (ofBe args))

/-- READ_MAP (R20). -/
def execReadMap (args : List Byte) (s : State) : Host.Outcome State Fault Refusal := .next (readMapEffect args s)

/-- MAP_SOFT (R21). -/
def mapSoftEffect (args : List Byte) (s : State) : State :=
  command .mapSoft args s (mapSoftReply (ofBe (args.take 3)) (ofBe (args.drop 3)))

/-- MAP_SOFT (R21). -/
def execMapSoft (args : List Byte) (s : State) : Host.Outcome State Fault Refusal := .next (mapSoftEffect args s)

/-- UNMAP_SOFT (R22). -/
def unmapSoftEffect (args : List Byte) (s : State) : State := command .unmapSoft args s (unmapSoftReply (ofBe args))

/-- UNMAP_SOFT (R22). -/
def execUnmapSoft (args : List Byte) (s : State) : Host.Outcome State Fault Refusal := .next (unmapSoftEffect args s)

/-- BAN_SPARE (R23). -/
def banSpareEffect (args : List Byte) (s : State) : State := command .banSpare args s (banSpareReply (ofBe args))

/-- BAN_SPARE (R23). -/
def execBanSpare (args : List Byte) (s : State) : Host.Outcome State Fault Refusal := .next (banSpareEffect args s)

end Sys2Proof.Machine
end

