-- ==== Sys2Proof/Machine/Request.lean ====
section
/-! DEFINITION. The request unit (chapter 2): arrival, relay queue, hold buffer, translation, answers and timeouts. -/

namespace Sys2Proof.Machine

/-! ### Tracker slots (R24, R25) -/

/-- The slot with number k, if it is in use. -/
def State.slot? (s : State) (k : Nat) : Option Slot := s.req.slots.getD k none

/-- The state with slot k replaced. -/
def State.setSlot (s : State) (k : Nat) (x : Option Slot) : State :=
  { s with req := { s.req with slots := s.req.slots.set k x } }

/-- The logical block of a slot (R2, R24). -/
def Slot.l (x : Slot) : Nat := blockOf x.addr

/-- The quad of a slot (R2, R24). -/
def Slot.q (x : Slot) : Nat := quadOf x.addr

/-- Slots in use (R25). -/
def RequestUnit.inUse (r : RequestUnit) : Nat := r.slots.countP Option.isSome

/-- Slots in ORPHAN (R187). -/
def RequestUnit.orphans (r : RequestUnit) : Nat :=
  r.slots.countP fun x =>
    match x with
    | some sl => sl.state == .orphan
    | none => false

/-- The free slot an accepted arrival takes: the lowest-numbered (log 17). -/
def RequestUnit.freeSlot (r : RequestUnit) : Option Nat := r.slots.findIdx? Option.isNone

/-! ### The migration context's answer (R74, R75) -/

/-- The forms in which the migration context answers for a request (R34, R74). -/
inductive Steer
  | notUnderMigration
  | source (block : Nat)
  | target (spare : Nat)
  | dual (block spare : Nat)
  | held (block : Nat)
  deriving DecidableEq, Repr

/-- The context's answer for a request of kind `kind` to quad q of L (R74, R75). -/
def Context.steer (c : Context) (l q : Nat) (kind : Access) : Steer :=
  match c with
  | .idle => .notUnderMigration
  | .copying m p lock =>
    if m.req.l ≠ l then .notUnderMigration
    else if q < p then
      match kind with
      | .read => .target m.target
      | .write => .dual m.source m.target
    else if q = p ∧ lock.isSome = true ∧ kind = .write then .held m.source
    else .source m.source
  | .finishing m => if m.req.l ≠ l then .notUnderMigration else .target m.target

/-- The context has locked quad q of L (R70). -/
def Context.locks (c : Context) (l q : Nat) : Bool :=
  match c with
  | .copying m p (some _) => m.req.l == l && p == q
  | _ => false

/-! ### The hold test (R31) -/

/-- The head is held: it goes to the locked quad of the block under migration, and it is a WRITE or the hold buffer already
holds a slot (R31). -/
def State.holdTest (s : State) (x : Slot) : Bool :=
  s.mig.context.locks x.l x.q && (x.kind == .write || !s.req.hold.isEmpty)

/-- Slot k meets the hold test. -/
def State.held (s : State) (k : Nat) : Bool :=
  match s.slot? k with
  | some x => s.holdTest x
  | none => false

/-- The hold buffer has a free place (R32). -/
def RequestUnit.holdHasRoom (r : RequestUnit) : Bool := decide (r.hold.length < Config.holdPlaces)

/-- The relay queue is stalled: its head is held and the hold buffer is full (R31). -/
def State.stalled (s : State) : Bool :=
  match s.req.relay with
  | k :: _ => s.held k && !s.req.holdHasRoom
  | [] => false

/-- Slot k leaves the relay queue for the tail of the hold buffer, with state HELD (R31). -/
def State.moveToHold (s : State) (k : Nat) (rest : List Nat) : State :=
  { s with
    req :=
      { s.req with
        slots := s.req.slots.modify k (Option.map fun x => { x with state := .held }),
        relay := rest, hold := s.req.hold ++ [k] } }

/-- The hold test on the head of the relay queue, and on each next head in turn while the last one was held and found room
(R31); at most as many as the hold buffer has places. -/
def testHead : Nat → State → State
  | 0, s => s
  | n + 1, s =>
    match s.req.relay with
    | k :: rest => if s.held k && s.req.holdHasRoom then testHead n (s.moveToHold k rest) else s
    | [] => s

/-- The hold test made when a slot has become head (R31). -/
def State.headTested (s : State) : State := testHead Config.holdPlaces s

/-- The hold test made if the head is no longer `before` (R31). -/
def State.testIfNewHead (s : State) (before : Option Nat) : State :=
  if s.req.relay.head? = before then s else s.headTested

/-! ### The release of the lock (R33) -/

/-- Every slot in the hold buffer returns to the front of the relay queue, in hold buffer order, as QUEUED. With the lock
absent the new head is not held, so the hold test of R31 changes nothing (R33). -/
def State.returnHeld (s : State) : State :=
  { s with
    req :=
      { s.req with
        slots := s.req.hold.foldl (fun t k => t.modify k (Option.map fun x => { x with state := .queued })) s.req.slots,
        relay := s.req.hold ++ s.req.relay, hold := [] } }

/-! ### Arrival (R27, R28, R197) -/

/-- A slot with answered false has the upstream tag (R27). -/
def RequestUnit.tagInUse (r : RequestUnit) (tag : Tag) : Bool :=
  r.slots.any fun x =>
    match x with
    | some sl => !sl.answered && sl.tag == tag
    | none => false

/-- The checks of an arrival that holds a credit, in order; the size of an accepted one (R27, R197). -/
def State.checkArrival (s : State) (kind : Access) (tag : Tag) (sizeCode : BitVec 2) (addr : Addr) (beats : Nat) :
    Except RejectReason Size :=
  if s.req.tagInUse tag then .error .tagInUse
  else
    match Size.ofCode sizeCode with
    | none => .error .align
    | some size =>
      if addr.toNat % (64 * size.lines) ≠ 0 then .error .align
      else if kind = .write ∧ beats ≠ size.lines then .error .align
      else if s.limit ≤ blockOf addr then .error .range
      else .ok size

/-- The slot of an accepted arrival (R28). -/
def newSlot (kind : Access) (tag : Tag) (size : Size) (addr : Addr) (beats : List WriteLine) (deadline : Nat) : Slot where
  state := .queued
  tag := tag
  kind := kind
  addr := addr
  size := size
  payload := if kind = .write then some beats else none
  deadline := deadline
  answered := false
  first := none
  second := none
  merged := none

/-- An arrival accepted into slot k: its credit becomes the slot, and the slot joins the tail of the relay queue; a slot that
becomes head is tested (R25, R28, R31). -/
def State.accept (s : State) (k : Nat) (x : Slot) : State :=
  State.testIfNewHead
    { s with
      req :=
        { credits := s.req.credits - 1, slots := s.req.slots.set k (some x), relay := s.req.relay ++ [k],
          hold := s.req.hold } }
    s.req.relay.head?

/-- UPSTREAM_REQUEST (R27, R28, R197). -/
def upstreamRequestEffect (kind : Access) (tag : Tag) (sizeCode : BitVec 2) (addr : Addr) (beats : List WriteLine)
    (s : State) : State :=
  powered s fun s =>
    if s.req.credits = 0 then s.sendUp (.response tag (.rejected .overrun) sizeCode [])
    else
      match s.checkArrival kind tag sizeCode addr beats.length with
      | .error reason => (s.sendUp (.response tag (.rejected reason) sizeCode [])).sendUp (.credit 1#8)
      | .ok size =>
        match s.req.freeSlot with
        | some k => s.accept k (newSlot kind tag size addr beats (s.clock.now + s.params.respTimeout))
        | none => s

/-! ### Answers (R37 to R39, R45) -/

/-- A slot is freed and its credit granted back (R25, R26). -/
def State.freeSlotCredit (s : State) (k : Nat) : State :=
  State.sendUp { s with req := { s.req with slots := s.req.slots.set k none, credits := s.req.credits + 1 } }
    (.credit 1#8)

/-- The status kept of an answer (R37). -/
def Answer.status : Answer → DoneOrFailed
  | .failed => .failed
  | _ => .done

/-- The lines of an answer (R38). -/
def Answer.lines : Answer → List ReadLine
  | .data ls => ls
  | _ => []

/-- The worse of two statuses (R39). -/
def DoneOrFailed.worse : DoneOrFailed → DoneOrFailed → DoneOrFailed
  | .done, .done => .done
  | _, _ => .failed

/-- The upstream status of a merged status (R38, R39). -/
def DoneOrFailed.up : DoneOrFailed → UpStatus
  | .done => .done
  | .failed => .failed

/-- The half is OUTSTANDING. -/
def Half.outstanding (h : Half) : Bool := h.answer.isNone

/-- The half an answer with this downstream tag belongs to is the second (R37). -/
def Slot.answersSecond (x : Slot) (tag : Tag) : Bool :=
  match x.second with
  | some h => h.outstanding && h.tag == tag
  | none => false

/-- The half marked ANSWERED. -/
def Half.answered (h : Half) (st : DoneOrFailed) : Half := { h with answer := some st }

/-- The merged status with one more answer (R24, R39). -/
def mergeAnswer (m : Option Merged) (a : Answer) : Merged :=
  match m with
  | none => { status := a.status, lines := a.lines }
  | some m => { status := m.status.worse a.status, lines := m.lines ++ a.lines }

/-- The slot with the half of this tag marked ANSWERED and the merged status kept (R37). -/
def Slot.answer (x : Slot) (tag : Tag) (a : Answer) : Slot :=
  if x.answersSecond tag then
    { x with second := x.second.map fun h => h.answered a.status, merged := some (mergeAnswer x.merged a) }
  else { x with first := x.first.map fun h => h.answered a.status, merged := some (mergeAnswer x.merged a) }

/-- A half of the slot is OUTSTANDING. -/
def Slot.anyOutstanding (x : Slot) : Bool :=
  (match x.first with
    | some h => h.outstanding
    | none => false) ||
  (match x.second with
    | some h => h.outstanding
    | none => false)

/-- The upstream response of a completed transaction: DONE with the lines of a READ, or FAILED with no data; the worse of
the halves for a dual write (R38, R39, R197). -/
def Slot.response (x : Slot) : UpMessage :=
  match x.merged with
  | some m =>
    .response x.tag m.status.up x.size.code
      (match x.kind, m.status with
      | .read, .done => m.lines.map ReadLine.beat
      | _, _ => [])
  | none => .response x.tag .failed x.size.code []

/-- A target failure report handed to the migration unit (R86). -/
def State.reportFailure (s : State) (r : FailureReport) : State :=
  { s with mig := { s.mig with failures := s.mig.failures ++ [r] } }

/-- A FAILED second half is reported as a target failure naming T, in ACTIVE and in ORPHAN alike (R39, R45). -/
def State.reportIfSecondFailed (s : State) (x : Slot) (e : OutEntry) (tag : Tag) (a : Answer) : State :=
  if x.answersSecond tag ∧ a.status = .failed then
    s.reportFailure { spare := e.block - s.limit, cause := .writeFail }
  else s

/-- The slot's handling of a response for one of its halves (R37). -/
def requestResponse (k : Nat) (tag : Tag) (e : OutEntry) (a : Answer) (s : State) : State :=
  match s.slot? k with
  | none => s
  | some x =>
    let y := x.answer tag a
    let s1 := s.reportIfSecondFailed x e tag a
    if y.anyOutstanding then s1.setSlot k (some y)
    else
      match x.state with
      | .orphan => (s1.freeSlotCredit k).hand .request (.lateResponse e.block)
      | _ => (s1.sendUp y.response).freeSlotCredit k

/-! ### Timeouts (R43, R44) -/

/-- The block a slot would be issued to had it been translated now; S for one that would be a dual write or be held
(R43). -/
def State.blockFor (s : State) (x : Slot) : Nat :=
  match s.mig.context.steer x.l x.q x.kind with
  | .notUnderMigration => s.translate x.l
  | .source b => b
  | .target k => s.limit + k
  | .dual b _ => b
  | .held b => b

/-- The block of an outstanding half: the first's if it is outstanding, otherwise the second's (R44). -/
def Slot.outstandingBlock (x : Slot) : Nat :=
  match x.first, x.second with
  | some h, some h2 => if h.outstanding then h.block else h2.block
  | some h, none => h.block
  | none, some h2 => h2.block
  | none, none => 0

/-- The TIMEOUT response of a slot (R43, R44). -/
def Slot.timeoutResponse (x : Slot) : UpMessage := .response x.tag .timeout x.size.code []

/-- A slot that timed out before issue leaves the relay queue and the hold buffer (R43). -/
def State.leaveQueues (s : State) (k : Nat) : State :=
  { s with req := { s.req with relay := s.req.relay.filter (· != k), hold := s.req.hold.filter (· != k) } }

/-- SLOT_DEADLINE_EXPIRY: the time has come to the slot's deadline (log 6). A QUEUED or HELD slot is answered TIMEOUT and freed
(R43); an ACTIVE one is answered TIMEOUT and becomes ORPHAN (R44); on a free slot or an ORPHAN there is no expiry (R42). A
next slot that becomes head is tested, and so is the head of a stall that a held slot's leaving ends (R31, R32). -/
def slotDeadlineEffect (k : Nat) (s : State) : State :=
  powered s fun s =>
    match s.slot? k with
    | none => s
    | some x =>
      match x.state with
      | .orphan => s
      | .active =>
        (((s.advanceTo x.deadline).sendUp x.timeoutResponse).setSlot k
          (some { x with state := .orphan, answered := true })).hand .request
            (.respTimeout .request x.outstandingBlock)
      | .queued =>
        ((((s.advanceTo x.deadline).sendUp x.timeoutResponse).leaveQueues k).freeSlotCredit k
          |>.hand .request (.respTimeout .request (s.blockFor x))).testIfNewHead s.req.relay.head?
      | .held =>
        let s1 :=
          (((s.advanceTo x.deadline).sendUp x.timeoutResponse).leaveQueues k).freeSlotCredit k
            |>.hand .request (.respTimeout .request (s.blockFor x))
        if s.stalled then s1.headTested else s1

/-! ### Meanings -/

/-- UPSTREAM_REQUEST (R27). -/
def execUpstreamRequest (kind : Access) (tag : Tag) (sizeCode : BitVec 2) (addr : Addr) (beats : List WriteLine)
    (s : State) : Host.Outcome State Fault Refusal :=
  .next (upstreamRequestEffect kind tag sizeCode addr beats s)

/-- UPSTREAM_OTHER_MESSAGE: discarded; it uses no credit, takes no slot and produces no response and no record (R197). -/
def execUpstreamOtherMessage (_type : BitVec 4) (s : State) : Host.Outcome State Fault Refusal := .next s

/-- SLOT_DEADLINE_EXPIRY (R43, R44). -/
def execSlotDeadlineExpiry (slot : Nat) (s : State) : Host.Outcome State Fault Refusal :=
  .next (slotDeadlineEffect slot s)

end Sys2Proof.Machine
end

