-- ==== Sys2Proof/Machine/Patrol.lean ====
section
/-! DEFINITION. The patrol unit (chapter 6): gap, issue attempts, the awaited response, and the patrol timeout. -/

namespace Sys2Proof.Machine

/-! ### The cursor (R125, R127) -/

/-- The next block after b (R125). -/
def nextBlock (capacity b : Nat) : Nat := if b + 1 < capacity then b + 1 else 0

/-- The cursor one quad on (R127). -/
def advanceCursor (capacity : Nat) (c : Nat × Nat) : Nat × Nat :=
  if c.2 + 1 < Config.quads then (c.1, c.2 + 1) else (nextBlock capacity c.1, 0)

/-- The state with the patrol unit replaced. -/
def State.setPatrol (s : State) (p : PatrolUnit) : State := { s with patrol := p }

/-! ### Live blocks and the issue attempt (R124, R125) -/

/-- Block p is the source or the target of the active migration (R124). -/
def Context.involves (c : Context) (limit p : Nat) : Bool :=
  match c with
  | .idle => false
  | .copying m _ _ => m.source == p || limit + m.target == p
  | .finishing m => m.source == p || limit + m.target == p

/-- The classes of a live block (R124). -/
def BlockClass.readable : BlockClass → Bool
  | .homeInUse _ => true
  | .freeSpare _ => true
  | .servingSpare _ _ => true
  | _ => false

/-- Block p is live (R124). -/
def State.isLive (s : State) (p : Nat) : Bool := (s.classify p).readable && !s.mig.context.involves s.limit p

/-- ISSUE_ATTEMPT: a live block at the cursor is offered; else the cursor goes to quad 0 of the next block (R125). -/
def issueAttemptEffect (s : State) : State :=
  powered s fun s =>
    match s.patrol.state with
    | .seeking =>
      if s.isLive s.patrol.block then
        s.setPatrol { s.patrol with state := .offered s.patrol.block s.patrol.quad }
      else
        s.setPatrol { state := .seeking, block := nextBlock s.capacityBlocks s.patrol.block, quad := 0 }
    | _ => s

/-! ### The gap (R123) -/

/-- GAP_EXPIRY: the gap count has come to PATROL_GAP (log 6), and the unit goes to SEEKING (R123). -/
def gapExpiryEffect (s : State) : State :=
  powered s fun s =>
    match s.patrol.state with
    | .gap n =>
      let s1 := s.passMicroseconds (s.params.patrolGap - n)
      s1.setPatrol { s1.patrol with state := .seeking }
    | _ => s

/-! ### The end of a read (R128, R131) -/

/-- The end of a patrol read: the cursor advances, and the unit goes to GAP if patrol is enabled and to OFF otherwise. -/
def State.endPatrolRead (s : State) : State :=
  let c := advanceCursor s.capacityBlocks (s.patrol.block, s.patrol.quad)
  s.setPatrol { state := if s.patrolEnabled then .gap 0 else .off, block := c.1, quad := c.2 }

/-- A patrol result that asks for retirement: FAILED, or a line UNCORRECTABLE (R128). -/
def Answer.bad : Answer → Bool
  | .data ls => ls.any fun l => l.status == .uncorrectable
  | _ => true

/-- The retirement asked for by the patrol unit (R129). -/
def State.patrolRetire (s : State) (k : Nat) : State :=
  match s.retireIfFree k with
  | (.free, s1) => s1.hand .patrol (.spareBanned k .patrol)
  | (_, s1) => s1

/-- A PATROL response: awaited in READING with its tag equal to the patrol tag (R128), otherwise discarded (R130). -/
def patrolResponse (tag : Tag) (a : Answer) (s : State) : State :=
  match s.patrol.state with
  | .reading b _ t _ =>
    if t = tag then
      if a.bad = true ∧ s.limit ≤ b then (s.patrolRetire (b - s.limit)).endPatrolRead else s.endPatrolRead
    else s
  | _ => s

/-- PATROL_DEADLINE_EXPIRY: the time has come to the patrol deadline (log 6) (R131). -/
def patrolDeadlineEffect (s : State) : State :=
  powered s fun s =>
    match s.patrol.state with
    | .reading b _ _ deadline =>
      ((s.advanceTo deadline).hand .patrol (.respTimeout .patrol b)).endPatrolRead
    | _ => s

/-! ### Meanings -/

/-- ISSUE_ATTEMPT (R125). -/
def execIssueAttempt (s : State) : Host.Outcome State Fault Refusal := .next (issueAttemptEffect s)

/-- GAP_EXPIRY (R123). -/
def execGapExpiry (s : State) : Host.Outcome State Fault Refusal := .next (gapExpiryEffect s)

/-- PATROL_DEADLINE_EXPIRY (R131). -/
def execPatrolDeadlineExpiry (s : State) : Host.Outcome State Fault Refusal := .next (patrolDeadlineEffect s)

end Sys2Proof.Machine
end

