-- ==== Sys2Proof/Machine/Migration.lean ====
section
/-! DEFINITION. The migration unit (chapter 4): retire queue, start, claim, copy, commit, the ways a migration stops, and the
four commands. -/

namespace Sys2Proof.Machine

/-! ### The retire queue (R65, R66) -/

/-- The answer to an enqueue (R66). -/
inductive EnqueueAnswer
  | merged | full | accepted
  deriving DecidableEq, Repr

/-- The state with the migration unit replaced. -/
def State.setMig (s : State) (m : MigrationUnit) : State := { s with mig := m }

/-- The migration unit with a request at the tail of the waiting list, and the start event that brings (R66, R68). -/
def MigrationUnit.join (m : MigrationUnit) (r : RetireRequest) : MigrationUnit :=
  { m with waiting := m.waiting ++ [r], startEvent := true }

/-- The queue is full: its occupancy is 8 (R65). -/
def MigrationUnit.isFull (m : MigrationUnit) : Bool := decide (Config.retirePlaces ≤ m.occupancy)

/-- An enqueue of L by the error watch unit, triggered by physical block p (R66). -/
def State.enqueue (s : State) (l p : Nat) : EnqueueAnswer × State :=
  if s.mig.holds l then (.merged, s)
  else if s.mig.isFull then (.full, s)
  else
    (.accepted, s.setMig (s.mig.join { l := l, origin := .auto p, retry := 0, enqueued := s.clock.epoch }))

/-! ### Ends of a migration -/

/-- The context returns to IDLE, which is a start event (R71). -/
def State.toIdle (s : State) : State := s.setMig { s.mig with context := .idle, startEvent := true }

/-- The lock, if present, is released and the held slots return to the relay queue (R81). -/
def State.releaseLock (s : State) (lock : Option Lock) : State := if lock.isSome then s.returnHeld else s

/-- A request returns to the head of the waiting list, in its own place (R65). -/
def State.returnRequest (s : State) (r : RetireRequest) : State :=
  s.setMig { s.mig with waiting := r :: s.mig.waiting }

/-- The commit: table, suspect entry of S, MIG_DONE, context IDLE (R11, R85). -/
def State.commitMove (s : State) (m : Move) : State :=
  ((State.freeSuspect { s with table := commitTable s.limit s.table m } m.source).hand .migration
    (.migDone m.req.l m.source m.target)).toIdle

/-- The retry decision on the stopped request: with the retry count above RETRY_LIMIT it is discarded with
MIG_FAILED(RETRIES), otherwise it returns to the head (R88). -/
def State.retryDecision (s : State) (r : RetireRequest) : State :=
  if s.params.retryLimit < r.retry + 1 then s.hand .migration (.migFailed r.l .retries)
  else s.returnRequest { r with retry := r.retry + 1 }

/-- A target failure taken in COPYING: lock released, copy offer withdrawn, T retired, TARGET_BAD, retry decision, context
IDLE (R87, R88). `firing` is the number of the RETIRE firing that reported it, if one did (R111). -/
def State.failTarget (s : State) (m : Move) (lock : Option Lock) (cause : TargetCause) (firing : Option Nat := none) :
    State :=
  ((((s.releaseLock lock).retireTarget m.target).hand .migration (.targetBad m.req.l m.target cause) none
    firing).retryDecision m.req).toIdle

/-- A migration in COPYING that ends without fault on its target: lock released, T released to FREE, one record (R12). -/
def State.stopMove (s : State) (m : Move) (lock : Option Lock) (record : RecordBody) : State :=
  ((s.releaseLock lock).releaseTarget m.target).hand .migration record

/-! ### Drains (R53, R77, R84) -/

/-- The phase CLAIMED goes to READING when no request-path write is outstanding to quad P of S (R77). -/
def State.tryRead (s : State) : State :=
  match s.mig.context with
  | .copying m p (some .claimed) =>
    if s.writeToQuad m.source p then s
    else s.setMig { s.mig with context := .copying m p (some (.reading none)) }
  | _ => s

/-- FINISHING commits when no request-path write is outstanding to S (R84). -/
def State.tryCommit (s : State) : State :=
  match s.mig.context with
  | .finishing m => if s.writeToBlock m.source then s else s.commitMove m
  | _ => s

/-- What the migration unit does with the removal of a request-path write: it tests the drain that concerns the entry's block
and quad (R53, R77, R84). -/
def State.writeRemoved (s : State) (e : OutEntry) : State :=
  if e.isRequestWrite then
    match s.mig.context with
    | .copying m p (some .claimed) => if e.block = m.source ∧ e.quad = p then s.tryRead else s
    | .finishing m => if e.block = m.source then s.tryCommit else s
    | _ => s
  else s

/-! ### START (R71, R72, R73) -/

/-- The conditions of a start but the waiting list: IDLE, READY, PRST_N high (R71). -/
def State.mayStart (s : State) : Bool := s.mig.context == .idle && s.isReady && s.prstN

/-- The position of the startable request nearest the head (R67, R71). -/
def State.startable (s : State) : Option Nat := s.mig.waiting.findIdx? fun r => !deferred s.table r.l

/-- A start of request r at position i: with a spare reserved the context goes to COPYING (R72); with none the request is
dropped with NO_SPARE, an AUTO request's suspect entry is marked, and the drop is a start event (R73). -/
def State.startRequest (s : State) (i : Nat) (r : RetireRequest) : State :=
  let waiting := s.mig.waiting.eraseIdx i
  match s.eligibleSpare with
  | some k =>
    (s.setEntry k (.reserved r.l)).setMig
      { s.mig with
        waiting := waiting, context := .copying { req := r, source := s.translate r.l, target := k } 0 none,
        startEvent := false }
  | none =>
    let s1 := (s.setMig { s.mig with waiting := waiting, startEvent := true }).hand .migration (.noSpare r.l)
    match r.origin with
    | .auto p => s1.markDenied p
    | .manual => s1

/-- START: an outstanding start event is taken (R71). -/
def startEffect (s : State) : State :=
  powered s fun s =>
    if s.mig.startEvent = false then s
    else if s.mayStart = false then s.setMig { s.mig with startEvent := false }
    else
      match s.startable with
      | none => s.setMig { s.mig with startEvent := false }
      | some i =>
        match s.mig.waiting[i]? with
        | some r => s.startRequest i r
        | none => s

/-! ### CLAIM, CLAIM_DRAIN_MET, COMMIT -/

/-- CLAIM: quad P is locked in phase CLAIMED, and the drain is tested in the claim event (R76, R77). -/
def claimEffect (s : State) : State :=
  powered s fun s =>
    match s.mig.context with
    | .copying m p none =>
      if p < Config.quads then
        (s.setMig { s.mig with context := .copying m p (some .claimed) }).tryRead
      else s
    | _ => s

/-- CLAIM_DRAIN_MET (R77). -/
def claimDrainMetEffect (s : State) : State := powered s State.tryRead

/-- COMMIT (R84, R85). -/
def commitEffect (s : State) : State := powered s State.tryCommit

/-! ### Copy responses (R79, R80, R82) -/

/-- A line of the copy buffer: data returned, poison for UNCORRECTABLE (R79). -/
def ReadLine.toCopy (l : ReadLine) : WriteLine := { data := l.data, poison := l.status == .uncorrectable }

/-- The copy buffer of an answer; four lines of zero data with poison for FAILED (R79). -/
def copyBuffer (a : Answer) : List WriteLine :=
  match a with
  | .data ls => ls.map ReadLine.toCopy
  | _ => List.replicate 4 { data := 0#512, poison := true }

/-- The records of a copy read: COPY_POISON for each poisoned line, in increasing line order; the line operand is the line's
number within the block (R79). -/
def State.handPoison (s : State) (l p source : Nat) (buffer : List WriteLine) : State :=
  (buffer.zipIdx).foldl
    (fun s x => if x.1.poison then s.hand .migration (.copyPoison l (4 * p + x.2) source) else s) s

/-- The awaited copy read response (R79). -/
def State.copyRead (s : State) (m : Move) (p : Nat) (a : Answer) : State :=
  (s.handPoison m.req.l p m.source (copyBuffer a)).setMig
    { s.mig with context := .copying m p (some (.writing (copyBuffer a) none)) }

/-- The awaited copy write's DONE: P increases, the lock is released, and at 64 the context goes to FINISHING, whose drain is
tested in the same event (R80, R81, R84). -/
def State.copyWritten (s : State) (m : Move) (p : Nat) : State :=
  if p + 1 < Config.quads then
    (s.setMig { s.mig with context := .copying m (p + 1) none }).returnHeld
  else (s.setMig { s.mig with context := .finishing m }).returnHeld.tryCommit

/-- A COPY response: awaited when its tag is the copy tag of a context in COPYING, otherwise discarded (R79, R80, R82). -/
def copyResponse (tag : Tag) (a : Answer) (s : State) : State :=
  match s.mig.context with
  | .copying m p (some (.reading (some c))) => if c.tag = tag then s.copyRead m p a else s
  | .copying m p (some (.writing b (some c))) =>
    if c.tag = tag then
      match a with
      | .failed => s.failTarget m (some (.writing b (some c))) .writeFail
      | _ => s.copyWritten m p
    else s
  | _ => s

/-! ### Copy deadline (R83, R89) -/

/-- COPY_DEADLINE_EXPIRY: the time has come to the copy deadline (log 6); in READING a copy-read timeout (R89), in WRITING a
target failure (R87). -/
def copyDeadlineEffect (s : State) : State :=
  powered s fun s =>
    match s.mig.context with
    | .copying m _ (some (.reading (some c))) =>
      ((s.advanceTo c.deadline).stopMove m (some (.reading (some c))) (.migFailed m.req.l .timeout)).toIdle
    | .copying m _ (some (.writing b (some c))) =>
      (s.advanceTo c.deadline).failTarget m (some (.writing b (some c))) .writeTimeout
    | _ => s

/-! ### Target failure reports (R86, R87) -/

/-- The migration unit takes a report: it acts when the context is COPYING and the report names its T, and otherwise
ignores it (R86). DESIGN CHOICE (log 32), unsafe: a report is matched by the spare it names alone, so one made against an
earlier reservation of T and still waiting acts on a new migration that has reserved T again. -/
def State.takeFailure (s : State) (r : FailureReport) : State :=
  match s.mig.context with
  | .copying m _ lock => if r.spare = m.target then s.failTarget m lock r.cause r.firing else s
  | _ => s

/-- TARGET_FAILURE: the waiting report at position k is taken (R86, R87). -/
def targetFailureEffect (k : Nat) (s : State) : State :=
  powered s fun s =>
    match s.mig.failures[k]? with
    | none => s
    | some r => (s.setMig { s.mig with failures := s.mig.failures.eraseIdx k }).takeFailure r

/-! ### Port reset (R93, R94) -/

/-- The migration unit's part of the falling edge of PRST_N: COPYING is stopped and its request returns to the head, FINISHING
commits, IDLE is unaffected (R93, R94). -/
def State.migrationReset (s : State) : State :=
  match s.mig.context with
  | .idle => s
  | .copying m _ lock =>
    ((s.stopMove m lock (.migAborted m.req.l .portReset)).returnRequest m.req).toIdle
  | .finishing m => s.commitMove m

/-! ### Commands (R68, R69, R90, R92) -/

/-- RETIRE(L) (R68). -/
def retireReply (l : Nat) (s : State) : Reply :=
  if s.limit ≤ l then s.refuse .range
  else if s.mig.holds l then s.refuse .already
  else if s.mig.isFull then s.refuse .full
  else
    let m := s.mig.join { l := l, origin := .manual, retry := 0, enqueued := s.clock.epoch }
    { result := .ok, payload := be3 l ++ be1 m.occupancy, after := s.setMig m }

/-- CANCEL_RETIRE(L) (R69). -/
def cancelRetireReply (l : Nat) (s : State) : Reply :=
  if s.limit ≤ l then s.refuse .range
  else
    match s.mig.waiting.find? fun r => r.l == l with
    | none => s.refuse .none
    | some r =>
      { result := .ok
        payload := be1 r.origin.number ++ be1 r.retry ++ be4 r.enqueued.toNat
        after := s.setMig { s.mig with waiting := s.mig.waiting.eraseP fun r => r.l == l } }

/-- ABORT_MIGRATION (R90). -/
def abortReply (s : State) : Reply :=
  match s.mig.context with
  | .idle => s.refuse .none
  | .finishing _ => s.refuse .tooLate
  | .copying m p lock =>
    { result := .ok
      payload := be3 m.req.l ++ be1 m.target ++ be1 p
      after := (s.stopMove m lock (.migAborted m.req.l .manual)).toIdle }

/-- The migration fields of READ_MIGRATION with no argument, bytes 1 to 20 (R70, R201). -/
def moveBytes (m : Move) (p : Nat) (lock : Option Lock) : List Byte :=
  be3 m.req.l ++ be3 m.source ++ be1 m.target ++ be1 p ++
    (match lock with
      | some ph => be1 p ++ be1 ph.number
      | none => [0xFF#8, 0xFF#8]) ++
    be1 m.req.retry ++ be1 m.req.origin.number ++ be3 (m.req.origin.trigger?.getD 0) ++
    be1 (flagBit m.req.origin.trigger?.isSome 0) ++ be4 m.req.enqueued.toNat

/-- READ_MIGRATION with no argument (R92, R201). -/
def readContextReply (s : State) : Reply :=
  s.report
    (be1 s.mig.context.number ++
      (match s.mig.context with
        | .idle => List.replicate 8 0#8 ++ [0xFF#8, 0xFF#8] ++ List.replicate 10 0#8
        | .copying m p lock => moveBytes m p lock
        | .finishing m => moveBytes m Config.quads none) ++
      be1 s.mig.waiting.length ++ be1 s.mig.occupancy ++
      be1 (s.mig.waiting.countP fun r => deferred s.table r.l))

/-- READ_MIGRATION(k) (R92, R201). -/
def readWaitingReply (k : Nat) (s : State) : Reply :=
  if 7 < k then s.refuse .range
  else
    match s.mig.waiting[k]? with
    | none => s.refuse .none
    | some r =>
      s.report
        (be1 k ++ be3 r.l ++ be1 r.origin.number ++
          be1 (flagBit r.origin.trigger?.isSome 0 + flagBit (deferred s.table r.l) 1) ++
          be3 (r.origin.trigger?.getD 0) ++ be1 r.retry ++ be4 r.enqueued.toNat)

/-! ### Meanings -/

/-- START (R72). -/
def execStart (s : State) : Host.Outcome State Fault Refusal := .next (startEffect s)

/-- CLAIM (R76). -/
def execClaim (s : State) : Host.Outcome State Fault Refusal := .next (claimEffect s)

/-- CLAIM_DRAIN_MET (R77). -/
def execClaimDrainMet (s : State) : Host.Outcome State Fault Refusal := .next (claimDrainMetEffect s)

/-- COMMIT (R85). -/
def execCommit (s : State) : Host.Outcome State Fault Refusal := .next (commitEffect s)

/-- COPY_DEADLINE_EXPIRY (R83). -/
def execCopyDeadlineExpiry (s : State) : Host.Outcome State Fault Refusal := .next (copyDeadlineEffect s)

/-- TARGET_FAILURE (R87). -/
def execTargetFailure (k : Nat) (s : State) : Host.Outcome State Fault Refusal := .next (targetFailureEffect k s)

/-- RETIRE (R68). -/
def retireEffect (args : List Byte) (s : State) : State := command .retire args s (retireReply (ofBe args))

/-- RETIRE (R68). -/
def execRetire (args : List Byte) (s : State) : Host.Outcome State Fault Refusal := .next (retireEffect args s)

/-- CANCEL_RETIRE (R69). -/
def cancelRetireEffect (args : List Byte) (s : State) : State :=
  command .cancelRetire args s (cancelRetireReply (ofBe args))

/-- CANCEL_RETIRE (R69). -/
def execCancelRetire (args : List Byte) (s : State) : Host.Outcome State Fault Refusal :=
  .next (cancelRetireEffect args s)

/-- ABORT_MIGRATION (R90). -/
def abortMigrationEffect (args : List Byte) (s : State) : State := command .abortMigration args s abortReply

/-- ABORT_MIGRATION (R90). -/
def execAbortMigration (args : List Byte) (s : State) : Host.Outcome State Fault Refusal :=
  .next (abortMigrationEffect args s)

/-- READ_MIGRATION (R92). -/
def readMigrationEffect (args : List Byte) (s : State) : State :=
  command .readMigration args s (if args = [] then readContextReply else readWaitingReply (ofBe args))

/-- READ_MIGRATION (R92). -/
def execReadMigration (args : List Byte) (s : State) : Host.Outcome State Fault Refusal :=
  .next (readMigrationEffect args s)

end Sys2Proof.Machine
end

