-- ==== Sys2Proof/Machine/Watch.lean ====
section
/-! DEFINITION. The error watch unit (chapter 5): status reports, firing, decay, and the three commands. -/

namespace Sys2Proof.Machine

/-! ### Finding the entry of a report (R101 to R104) -/

/-- Whether a report for a block of this class is counted (R101). -/
def BlockClass.counted : BlockClass → Bool
  | .homeRemapped => false
  | .retiredSpare _ => false
  | _ => true

/-- The age of an epoch (R97). -/
def ageOf (now e : Epoch) : Nat := (now - e).toNat

/-- Candidate `a` is chosen before `b` by the keys of R103 but the position: lowest UE count, lowest CE count, oldest last
epoch. -/
def victimBefore (now : Epoch) (a b : Suspect) : Bool :=
  decide (a.ue < b.ue) ||
    (a.ue == b.ue &&
      (decide (a.ce < b.ce) || (a.ce == b.ce && decide (ageOf now b.last < ageOf now a.last))))

/-- The victim among the candidates from position i on, with its entry; the lowest-numbered of equals (R103). -/
def victimFrom (now : Epoch) : Nat → List (Option Suspect) → Option (Nat × Suspect)
  | _, [] => none
  | i, x :: xs =>
    match x, victimFrom now (i + 1) xs with
    | some e, some (j, f) => if e.candidate then (if victimBefore now f e then some (j, f) else some (i, e)) else some (j, f)
    | some e, none => if e.candidate then some (i, e) else none
    | none, r => r

/-- The position the entry for block p is at or is made at, if any: its entry's, the lowest-numbered free one, or the victim's
(R102). -/
def suspectPlace (now : Epoch) (t : List (Option Suspect)) (p : Nat) : Option Nat :=
  match suspectPos t p with
  | some i => some i
  | none =>
    match t.findIdx? Option.isNone with
    | some i => some i
    | none => (victimFrom now 0 t).map Prod.fst

/-- A new entry (R102). -/
def newSuspect (p : Nat) (now : Epoch) : Suspect where
  block := p
  ce := 0
  ue := 0
  first := now
  last := now
  ceFired := false
  ueFired := false
  denied := false

/-- The entry a report is counted into: the one that names p, else a new one (R102). -/
def suspectFor (now : Epoch) (t : List (Option Suspect)) (p i : Nat) : Suspect :=
  match t.getD i none with
  | some e => if e.block = p then e else newSuspect p now
  | none => newSuspect p now

/-- The state with the suspect entry at position i replaced. -/
def State.setSuspect (s : State) (i : Nat) (e : Suspect) : State :=
  { s with watch := { s.watch with suspects := s.watch.suspects.set i (some e) } }

/-- The suspect entry at position i. -/
def State.suspect? (s : State) (i : Nat) : Option Suspect := s.watch.suspects.getD i none

/-! ### Firing (R106 to R111) -/

/-- The record of a firing: p, the logical block served, the count of the firing class, the cause (R107). -/
def limitRecord (c : LimitClass) (p : Nat) (served : Option Nat) (count : Nat) (cause : LimitCause) : RecordBody :=
  match c with
  | .ce => .ceLimit p served count cause
  | .ue => .ueLimit p served count cause

/-- The entry with the fired flag of a class set. -/
def Suspect.setFired (e : Suspect) : LimitClass → Suspect
  | .ce => { e with ceFired := true }
  | .ue => { e with ueFired := true }

/-- The entry with the count of a class reset to 0. -/
def Suspect.resetCount (e : Suspect) : LimitClass → Suspect
  | .ce => { e with ce := 0 }
  | .ue => { e with ue := 0 }

/-- The entry after a LOG or ALERT firing: the flag set under MANUAL, the count reset under AUTO (R107). -/
def Suspect.afterLog (e : Suspect) (mode : RearmMode) (c : LimitClass) : Suspect :=
  match mode with
  | .manual => e.setFired c
  | .auto => e.resetCount c

/-- The enqueue of a firing: the limit record takes its cause from the answer, and FULL sets RETIRE_DENIED (R108, R109). -/
def State.fireEnqueue (s : State) (c : LimitClass) (i l : Nat) (e : Suspect) : State :=
  let r := s.enqueue l e.block
  let cause := if r.1 = .full then LimitCause.queueFull else LimitCause.none
  let e1 := if r.1 = .full then { e with denied := true } else e
  (r.2.setSuspect i e1).hand .watch (limitRecord c e.block (some l) (e.count c) cause) (some .retire)

/-- The limit record of a RETIRE firing on a spare that serves no block, handed under the firing's number; the next firing takes
the next number (R108, log 13). -/
def State.handFiring (s : State) (c : LimitClass) (e : Suspect) : State :=
  State.hand { s with watch := { s.watch with firings := s.watch.firings + 1 } } .watch
    (limitRecord c e.block none (e.count c) .none) (some .retire) (some s.watch.firings)

/-- The retirement of a free spare that firing `n` asks for, by the entry the event at the table finds; the limit record has
been written (R110; a HARD entry acts as its class, R14, log 22). -/
def State.fireFreeSpare (s : State) (i k n : Nat) (e : Suspect) : State :=
  match s.retireIfFree k with
  | (.free, s1) => s1.hand .watch (.spareBanned k .errorLimit)
  | (.reserved _, s1) => s1.reportFailure { spare := k, cause := .errorLimit, firing := some n }
  | (.soft l _, s1) =>
    if (s1.enqueue l e.block).1 = .full then s1.setSuspect i { e with denied := true } else (s1.enqueue l e.block).2
  | (.hard l _, s1) =>
    if (s1.enqueue l e.block).1 = .full then s1.setSuspect i { e with denied := true } else (s1.enqueue l e.block).2
  | (.retired _ _ _ _, s1) => s1

/-- A RETIRE firing of class c on the entry at position i, by the class of the block taken for the report (R108 to R111). -/
def State.fireRetire (s : State) (bc : BlockClass) (c : LimitClass) (i : Nat) (e : Suspect) : State :=
  let e1 := e.setFired c
  match bc with
  | .homeInUse l => s.fireEnqueue c i l e1
  | .servingSpare _ l => s.fireEnqueue c i l e1
  | .freeSpare k => ((s.setSuspect i e1).handFiring c e).fireFreeSpare i k s.watch.firings e1
  | .migrationTarget k =>
    ((s.setSuspect i e1).handFiring c e).reportFailure
      { spare := k, cause := .errorLimit, firing := some s.watch.firings }
  | .homeRemapped => s.setSuspect i e1
  | .retiredSpare _ => s.setSuspect i e1

/-- A firing of class c on the entry e, which has counted its item, at position i (R107, R108). -/
def State.fire (s : State) (bc : BlockClass) (c : LimitClass) (i : Nat) (e : Suspect) : State :=
  match s.params.action c with
  | .none => s.setSuspect i e
  | .log =>
    (s.setSuspect i (e.afterLog s.params.rearmMode c)).hand .watch
      (limitRecord c e.block bc.served? (e.count c) .none) (some .log)
  | .alert =>
    (s.setSuspect i (e.afterLog s.params.rearmMode c)).hand .watch
      (limitRecord c e.block bc.served? (e.count c) .none) (some .alert)
  | .retire => s.fireRetire bc c i e

/-! ### Counting (R105) -/

/-- The entry with one more error of a class counted, saturating at 255, at the current epoch (R105). -/
def Suspect.countOne (e : Suspect) (now : Epoch) : LimitClass → Suspect
  | .ce => { e with ce := min 255 (e.ce + 1), last := now }
  | .ue => { e with ue := min 255 (e.ue + 1), last := now }

/-- The class an item counts in; none for OK (R100). -/
def ItemStatus.limitClass : ItemStatus → Option LimitClass
  | .ok => none
  | .corrected => some .ce
  | .uncorrectable => some .ue
  | .failed => some .ue

/-- One item of a report is counted into the entry at position i and its class is tested for firing (R105, R106). -/
def State.countItem (s : State) (bc : BlockClass) (i : Nat) (st : ItemStatus) : State :=
  match st.limitClass, s.suspect? i with
  | some c, some e =>
    let e1 := e.countOne s.clock.epoch c
    if e1.fires s.params c then s.fire bc c i e1 else s.setSuspect i e1
  | _, _ => s

/-- The error watch unit takes a status report (R100 to R112). -/
def State.takeReport (s : State) (r : StatusReport) : State :=
  if r.items.all fun x => x.2 == .ok then s
  else
    let bc := s.classify r.block
    if bc.counted = false then s
    else
      match suspectPlace s.clock.epoch s.watch.suspects r.block with
      | some i =>
        r.items.foldl (fun s x => s.countItem bc i x.2)
          (s.setSuspect i (suspectFor s.clock.epoch s.watch.suspects r.block i))
      | none =>
        if s.watch.fullReported then s
        else
          State.hand { s with watch := { s.watch with fullReported := true } } .watch (.suspectFull r.block)

/-- STATUS_REPORT: the waiting report at position k is taken (R100). -/
def statusReportEffect (k : Nat) (s : State) : State :=
  powered s fun s =>
    match s.watch.reports[k]? with
    | none => s
    | some r => State.takeReport { s with watch := { s.watch with reports := s.watch.reports.eraseIdx k } } r

/-! ### Decay (R98, R113) -/

/-- DECAY_EXPIRY: the expiry that is due is taken; with none due the time comes to the next one first (log 6), which it does
not while DECAY_PERIOD is 0 (R98, R113). -/
def decayExpiryEffect (s : State) : State :=
  powered s fun s =>
    if s.params.decayPeriod = 0 then s
    else
      let s1 := if s.watch.decayDue then s else s.passMilliseconds (s.decayPeriodMs - s.watch.decayCount)
      { s1 with watch := s1.watch.decay }

/-! ### Commands (R116 to R118) -/

/-- READ_SUSPECT(i) (R116). -/
def readSuspectReply (i : Nat) (s : State) : Reply :=
  if 31 < i then s.refuse .range
  else
    match s.suspect? i with
    | none => s.refuse .none
    | some e =>
      let c := s.classify e.block
      s.report
        (be1 i ++ be4 s.clock.epoch.toNat ++ be3 e.block ++ be1 e.ce ++ be1 e.ue ++ be4 e.first.toNat ++
          be4 e.last.toNat ++ be1 (e.flags + flagBit c.served?.isSome 3) ++ be1 c.number ++ be3 (c.served?.getD 0))

/-- CLEAR_SUSPECT(p) (R117). -/
def clearSuspectReply (p : Nat) (s : State) : Reply :=
  if s.capacityBlocks ≤ p then s.refuse .range
  else
    match suspectPos s.watch.suspects p with
    | none => s.refuse .none
    | some i =>
      match s.suspect? i with
      | none => s.refuse .none
      | some e =>
        { result := .ok, payload := be1 e.ce ++ be1 e.ue ++ be1 e.flags, after := s.freeSuspect p }

/-- An entry rearmed: counts 0, flags false, epochs kept (R118). -/
def Suspect.rearmed (e : Suspect) : Suspect :=
  { e with ce := 0, ue := 0, ceFired := false, ueFired := false, denied := false }

/-- REARM(p) (R118). -/
def rearmReply (p : Nat) (s : State) : Reply :=
  if s.capacityBlocks ≤ p then s.refuse .range
  else
    match suspectPos s.watch.suspects p with
    | none => s.refuse .none
    | some i =>
      match s.suspect? i with
      | none => s.refuse .none
      | some e => { result := .ok, payload := [], after := s.setSuspect i e.rearmed }

/-! ### Meanings -/

/-- STATUS_REPORT (R100). -/
def execStatusReport (k : Nat) (s : State) : Host.Outcome State Fault Refusal := .next (statusReportEffect k s)

/-- DECAY_EXPIRY (R113). -/
def execDecayExpiry (s : State) : Host.Outcome State Fault Refusal := .next (decayExpiryEffect s)

/-- READ_SUSPECT (R116). -/
def readSuspectEffect (args : List Byte) (s : State) : State := command .readSuspect args s (readSuspectReply (ofBe args))

/-- READ_SUSPECT (R116). -/
def execReadSuspect (args : List Byte) (s : State) : Host.Outcome State Fault Refusal := .next (readSuspectEffect args s)

/-- CLEAR_SUSPECT (R117). -/
def clearSuspectEffect (args : List Byte) (s : State) : State :=
  command .clearSuspect args s (clearSuspectReply (ofBe args))

/-- CLEAR_SUSPECT (R117). -/
def execClearSuspect (args : List Byte) (s : State) : Host.Outcome State Fault Refusal :=
  .next (clearSuspectEffect args s)

/-- REARM (R118). -/
def rearmEffect (args : List Byte) (s : State) : State := command .rearm args s (rearmReply (ofBe args))

/-- REARM (R118). -/
def execRearm (args : List Byte) (s : State) : Host.Outcome State Fault Refusal := .next (rearmEffect args s)

end Sys2Proof.Machine
end

