-- ==== Sys2Proof/Machine/Arbiter.lean ====
section
/-! DEFINITION. The issue arbiter and downstream port (chapter 3): offers, grants, the relay's issue, and responses. -/

namespace Sys2Proof.Machine

/-! ### Tags (R52) -/

/-- A tag is held: an entry of the outstanding downstream table has it (R52). -/
def tagHeld (out : List (Tag × OutEntry)) (t : Tag) : Bool := out.any fun x => x.1 == t

/-- The first free tag at or after t, looking at n tags, counting upward and wrapping from 255 to 0 (R52). -/
def freeTagFrom (out : List (Tag × OutEntry)) : Nat → Tag → Option Tag
  | 0, _ => none
  | n + 1, t => if tagHeld out t then freeTagFrom out n (t + 1#8) else some t

/-- The tag the arbiter assigns next (R52). -/
def Arbiter.nextFree (a : Arbiter) : Option Tag := freeTagFrom a.outstanding 256 a.nextTag

/-- The number of tags that are not held: each of the 256 is held by at most one entry (R52). -/
def Arbiter.freeTags (a : Arbiter) : Nat := 256 - a.outstanding.length

/-- An offer that needs n credits and n tags is servable (R54). -/
def Arbiter.servable (a : Arbiter) (n : Nat) : Bool := decide (n ≤ a.credits) && decide (n ≤ a.freeTags)

/-! ### Placing a request on the channel (R50, R52) -/

/-- The arbiter after one request is placed: a credit consumed, the entry recorded under the tag, the pointer one past it. -/
def Arbiter.place (a : Arbiter) (tag : Tag) (e : OutEntry) : Arbiter :=
  { a with credits := a.credits - 1, outstanding := a.outstanding ++ [(tag, e)], nextTag := tag + 1#8 }

/-- The message of a request: its direction, tag, size code and physical byte address, and for a WRITE its beats (R50). -/
def requestMessage (tag : Tag) (e : OutEntry) (beats : List WriteLine) : DownMessage :=
  let address := physAddr e.block (e.quad * 256 + 64 * e.firstLine)
  match e.dir with
  | .read => .read tag e.size.code address
  | .write => .write tag e.size.code address beats

/-- One request placed on the channel under a tag (R50, R52). -/
def State.place (s : State) (tag : Tag) (e : OutEntry) (beats : List WriteLine) : State :=
  State.sendDown { s with arb := s.arb.place tag e } (requestMessage tag e beats)

/-! ### Offers (R54) -/

/-- The relay's offer: the head, unless it is stalled behind a full hold buffer (R31, R54, R56). -/
def State.relayOffer (s : State) : Option Nat := if s.stalled then none else s.req.relay.head?

/-- The credits and tags a slot needs: two when the migration context would answer it "dual" (R54). -/
def State.relayNeed (s : State) (x : Slot) : Nat :=
  match s.mig.context.steer x.l x.q x.kind with
  | .dual _ _ => 2
  | _ => 1

/-- The relay offer is servable. -/
def State.relayServable (s : State) : Bool :=
  match s.relayOffer with
  | some k =>
    match s.slot? k with
    | some x => s.arb.servable (s.relayNeed x)
    | none => false
  | none => false

/-- The copy engine offers a request: the phase is READING or WRITING and holds no copy tag (R78, R80). -/
def Context.offersCopy (c : Context) : Bool :=
  match c with
  | .copying _ _ (some (.reading none)) => true
  | .copying _ _ (some (.writing _ none)) => true
  | _ => false

/-- The patrol unit offers a request (R126). -/
def PatrolState.offers (p : PatrolState) : Bool :=
  match p with
  | .offered _ _ => true
  | _ => false

/-- A COPY or PATROL offer stands (R55). -/
def State.backgroundOffers (s : State) : Bool := s.mig.context.offersCopy || s.patrol.state.offers

/-- A background offer is servable; each needs one credit and one tag (R54). -/
def State.backgroundServable (s : State) : Bool := s.backgroundOffers && s.arb.servable 1

/-! ### The choice (R55) -/

/-- Who wins a grant. -/
inductive Winner
  | relay | copy | patrol
  deriving DecidableEq, Repr

/-- The background winner: COPY before PATROL (R55). -/
def State.backgroundWinner (s : State) : Winner := if s.mig.context.offersCopy then .copy else .patrol

/-- The winner of a grant, if any offer is servable (R55). -/
def State.winner (s : State) : Option Winner :=
  if s.params.bgShare ≤ s.arb.bgWait ∧ s.backgroundServable = true then some s.backgroundWinner
  else if s.relayServable then some .relay
  else if s.backgroundServable then some s.backgroundWinner
  else none

/-- The background wait count after a relay grant (R55). -/
def State.waitAfterRelay (s : State) : Nat :=
  if s.backgroundOffers then min Config.maxBgWait (s.arb.bgWait + 1) else 0

/-- The state with the background wait count replaced. -/
def State.setWait (s : State) (n : Nat) : State := { s with arb := { s.arb with bgWait := n } }

/-! ### Relay grants (R34, R35, R36) -/

/-- The entry of a slot's request to a physical block (R35, R36). -/
def Slot.entryTo (x : Slot) (k p : Nat) : OutEntry where
  owner := .request k
  block := p
  quad := x.q
  firstLine := lineOf x.addr
  size := x.size
  dir := x.kind

/-- The beats a slot's request carries: the payload of a WRITE (R35). -/
def Slot.beats (x : Slot) : List WriteLine := x.payload.getD []

/-- The slot leaves the relay queue as ACTIVE with its halves (R35, R36). -/
def State.activate (s : State) (k : Nat) (x : Slot) (first : Half) (second : Option Half) : State :=
  { s with
    req :=
      { s.req with
        slots := s.req.slots.set k (some { x with state := .active, first := some first, second := second }),
        relay := s.req.relay.filter (· != k) } }

/-- A half just issued. -/
def newHalf (p : Nat) (tag : Tag) : Half where
  block := p
  tag := tag
  answer := none

/-- The issue of a slot to one physical block (R35). -/
def State.issueSingle (s : State) (k : Nat) (x : Slot) (p : Nat) : State :=
  match s.arb.nextFree with
  | some t => (s.place t (x.entryTo k p) x.beats).activate k x (newHalf p t) none
  | none => s

/-- The issue of a dual write: first to S, then to T (R36). -/
def State.issueDual (s : State) (k : Nat) (x : Slot) (source target : Nat) : State :=
  match s.arb.nextFree with
  | some t =>
    let s1 := s.place t (x.entryTo k source) x.beats
    match s1.arb.nextFree with
    | some t2 =>
      (s1.place t2 (x.entryTo k target) x.beats).activate k x (newHalf source t) (some (newHalf target t2))
    | none => s
  | none => s

/-- A slot that is not held is translated and issued (R34). -/
def State.issue (s : State) (k : Nat) (x : Slot) : State :=
  match s.mig.context.steer x.l x.q x.kind with
  | .notUnderMigration => s.issueSingle k x (s.translate x.l)
  | .source p => s.issueSingle k x p
  | .target t => s.issueSingle k x (s.limit + t)
  | .dual p t => s.issueDual k x p (s.limit + t)
  | .held _ => s

/-- A relay grant: the head is issued, the background wait count set, and the next head tested (R31, R35, R36, R55). -/
def State.grantRelay (s : State) : State :=
  match s.req.relay with
  | k :: _ =>
    match s.slot? k with
    | some x => ((s.issue k x).setWait s.waitAfterRelay).headTested
    | none => s
  | [] => s

/-! ### Background grants (R78, R80, R126) -/

/-- The entry of a four-line background request (R50, R52). -/
def backgroundEntry (owner : Owner) (p q : Nat) (dir : Access) : OutEntry where
  owner := owner
  block := p
  quad := q
  firstLine := 0
  size := .four
  dir := dir

/-- The deadline of a request granted now (R78, R126). -/
def State.deadlineNow (s : State) : Nat := s.clock.now + s.params.respTimeout

/-- A COPY grant: a read of quad P of S, or a write of quad P of T; the context takes the copy tag and the copy deadline
(R50, R78, R80). -/
def State.grantCopy (s : State) : State :=
  match s.arb.nextFree, s.mig.context with
  | some t, .copying m p (some (.reading none)) =>
    (((s.place t (backgroundEntry .copy m.source p .read) []).setMig
      { s.mig with context := .copying m p (some (.reading (some { tag := t, deadline := s.deadlineNow }))) })).setWait 0
  | some t, .copying m p (some (.writing b none)) =>
    (((s.place t (backgroundEntry .copy (s.limit + m.target) p .write) b).setMig
      { s.mig with context := .copying m p (some (.writing b (some { tag := t, deadline := s.deadlineNow }))) })).setWait 0
  | _, _ => s

/-- A PATROL grant: the unit records the patrol tag and the patrol deadline and goes to READING (R126). -/
def State.grantPatrol (s : State) : State :=
  match s.arb.nextFree, s.patrol.state with
  | some t, .offered p q =>
    ((s.place t (backgroundEntry .patrol p q .read) []).setPatrol
      { s.patrol with state := .reading p q t s.deadlineNow }).setWait 0
  | _, _ => s

/-! ### ISSUE_GRANT (R54 to R57) -/

/-- A grant of the arbiter to a winner. -/
def State.grant (s : State) (w : Winner) : State :=
  match w with
  | .relay => s.grantRelay
  | .copy => s.grantCopy
  | .patrol => s.grantPatrol

/-- The head of the relay queue is held now (R31, R34). -/
def State.headHeld (s : State) : Bool :=
  match s.req.relay with
  | k :: _ => s.held k
  | [] => false

/-- The grant is taken when the winner is a background offer or a head that is not held; a relay grant that finds the head
held moves it to the hold buffer, with every next head that is held in turn, and the arbiter chooses again (R57). -/
def State.takeGrant (s : State) : State :=
  match s.winner with
  | none => s
  | some .relay =>
    if s.headHeld then
      match s.headTested.winner with
      | none => s.headTested
      | some w => s.headTested.grant w
    else s.grantRelay
  | some w => s.grant w

/-- ISSUE_GRANT: the channel is ready (log 9); a grant is taken when the link is out of reset and an offer is servable
(R54). -/
def issueGrantEffect (s : State) : State := powered s fun s => if s.arb.linkUp then s.takeGrant else s

/-! ### Downstream messages (R51, R60 to R62, R198) -/

/-- DOWNSTREAM_CREDIT_GRANT: the count is added, up to 128 (R51); none arrives while the link is in reset (R63). -/
def creditGrantEffect (count : Byte) (s : State) : State :=
  powered s fun s =>
    if s.arb.linkUp then
      { s with arb := { s.arb with credits := min Config.maxDownCredits (s.arb.credits + count.toNat) } }
    else s

/-- The entry that holds a tag (R52). -/
def Arbiter.entry? (a : Arbiter) (t : Tag) : Option OutEntry :=
  (a.outstanding.find? fun x => x.1 == t).map Prod.snd

/-- The table without the entry of a tag (R60). -/
def State.removeTag (s : State) (t : Tag) : State :=
  { s with arb := { s.arb with outstanding := s.arb.outstanding.filter fun x => x.1 != t } }

/-- The owner's handling of a response (R60). -/
def State.route (s : State) (t : Tag) (e : OutEntry) (a : Answer) : State :=
  match e.owner with
  | .request k => requestResponse k t e a s
  | .copy => copyResponse t a s
  | .patrol => patrolResponse t a s

/-- A status report made and not yet taken (R61). -/
def State.makeReport (s : State) (r : StatusReport) : State :=
  { s with watch := { s.watch with reports := s.watch.reports ++ [r] } }

/-- The status report of a READ response: taken at once when it is taken before the owner's handling, and otherwise left for
STATUS_REPORT (R61, log 11). A WRITE response gives none. -/
def State.reportStatuses (s : State) (e : OutEntry) (a : Answer) (reportFirst : Bool) : State :=
  match e.dir with
  | .read => if reportFirst then s.takeReport (reportOf e a) else s.makeReport (reportOf e a)
  | .write => s

/-- DOWNSTREAM_RESPONSE: a free tag's response is discarded (R62); a held tag's entry is removed, its statuses are reported,
its owner handles it, and the removal of a request-path write is reported to the migration unit (R60, R61, R53). No
response is received while the link is in reset (R63). -/
def downstreamResponseEffect (tag : Tag) (status : BitVec 2) (beats : List ReadBeat) (reportFirst : Bool) (s : State) :
    State :=
  powered s fun s =>
    if s.arb.linkUp then
      match s.arb.entry? tag with
      | none => s
      | some e =>
        let a := answerOf e status beats
        (((s.removeTag tag).reportStatuses e a reportFirst).route tag e a).writeRemoved e
    else s

/-! ### Meanings -/

/-- ISSUE_GRANT (R55). -/
def execIssueGrant (s : State) : Host.Outcome State Fault Refusal := .next (issueGrantEffect s)

/-- DOWNSTREAM_CREDIT_GRANT (R51). -/
def execDownstreamCreditGrant (count : Byte) (s : State) : Host.Outcome State Fault Refusal :=
  .next (creditGrantEffect count s)

/-- DOWNSTREAM_OTHER_MESSAGE: discarded without a record (R198). -/
def execDownstreamOtherMessage (_type : BitVec 4) (s : State) : Host.Outcome State Fault Refusal := .next s

/-- DOWNSTREAM_RESPONSE (R60). -/
def execDownstreamResponse (tag : Tag) (status : BitVec 2) (beats : List ReadBeat) (reportFirst : Bool) (s : State) :
    Host.Outcome State Fault Refusal :=
  .next (downstreamResponseEffect tag status beats reportFirst s)

end Sys2Proof.Machine
end

