-- ==== Sys2Proof/Machine/FuseBits.lean ====
section
/-! DEFINITION. The 40 bits of a fuse record (11.2, R199) and their classification (R151). -/

namespace Sys2Proof.Machine

/-- Bits 39..8 of a record with the marker taken as 1: marker, kind, L, s, zero bits (11.2). -/
def FuseRecord.head : FuseRecord → BitVec 32
  | .map l s => 1#1 ++ 0#1 ++ BitVec.ofNat 20 l ++ BitVec.ofNat 7 s ++ 0#3
  | .ban s => 1#1 ++ 1#1 ++ 0#20 ++ BitVec.ofNat 7 s ++ 0#3

/-- The check of bits 39..8: the CRC-8 of the four bytes, bits 39..32 first (R199). -/
def fuseCheck (head : BitVec 32) : Byte :=
  crc8 [head.extractLsb' 24 8, head.extractLsb' 16 8, head.extractLsb' 8 8, head.extractLsb' 0 8]

/-- The 40 bits of a record (11.2). -/
def FuseRecord.word (r : FuseRecord) : FuseWord := r.head ++ fuseCheck r.head

/-- The written marker, bit 39 (11.2). -/
def fuseMarker (w : FuseWord) : Bool := w.getLsbD 39

/-- The kind, bit 38: 0 MAP, 1 BAN (11.2). -/
def fuseKindOf (w : FuseWord) : FuseKind := if w.getLsbD 38 then .ban else .map

/-- The L field, bits 37..18 (11.2). -/
def fuseLOf (w : FuseWord) : Nat := (w.extractLsb' 18 20).toNat

/-- The spare field, bits 17..11 (11.2). -/
def fuseSOf (w : FuseWord) : Nat := (w.extractLsb' 11 7).toNat

/-- The check matches bits 39..8 as read (R199). -/
def fuseCheckOk (w : FuseWord) : Bool := fuseCheck (w.extractLsb' 8 32) == w.extractLsb' 0 8

/-- The record the fields of a slot spell. -/
def fuseRecordOf (w : FuseWord) : FuseRecord :=
  match fuseKindOf w with
  | .map => .map (fuseLOf w) (fuseSOf w)
  | .ban => .ban (fuseSOf w)

/-- The classification of a slot from its 40 bits alone, first row that applies (R151). -/
def classifySlot (w : FuseWord) : SlotKind :=
  if w = 0#40 then .blank
  else if fuseMarker w = false then .spoiled (.load .torn)
  else if fuseCheckOk w = false ∨ w.extractLsb' 8 3 ≠ 0#3 ∨ (fuseKindOf w = .ban ∧ fuseLOf w ≠ 0) then
    .spoiled (.load .check)
  else .valid

/-- One bit of a fuse word. -/
def fuseBit (i : Nat) : FuseWord := BitVec.ofNat 40 (2 ^ i)

/-- The bits of a word in the first group the programmer takes: kind, L and s (R163). -/
def fieldBits (w : FuseWord) : FuseWord := w &&& 0x7FFFFFFF00#40

/-- The bits of a word in the second group: the check (R163). -/
def checkBits (w : FuseWord) : FuseWord := w &&& 0xFF#40

/-- The bits of a word but its marker. -/
def bodyBits (w : FuseWord) : FuseWord := w &&& 0x7FFFFFFFFF#40

/-- Whether the programmer is applying bit `i` of a record when `reported` has been reported programmed: a field bit that
is 1 and not yet reported, or, when every field bit has been, a check bit that is 1 and not yet reported (R163). -/
def applyingBit (word reported : FuseWord) (i : Nat) : Bool :=
  decide (i < 39) && word.getLsbD i && !(reported.getLsbD i) &&
    (decide (8 ≤ i) || fieldBits word &&& ~~~reported == 0#40)

/-- The slot's number with an update of the array: slot k takes the bits of f. -/
def setFuse (array : List FuseWord) (k : Nat) (f : FuseWord → FuseWord) : List FuseWord :=
  array.set k (f (array.getD k 0#40))

/-- One more than the highest-numbered slot that is not BLANK, or 0 (R152). -/
def appendPointerOf : List SlotKind → Nat
  | [] => 0
  | k :: ks =>
    match appendPointerOf ks with
    | 0 => if k = .blank then 0 else 1
    | n + 1 => n + 2

end Sys2Proof.Machine
end

