-- ==== Sys2Proof/Machine/Fuse.lean ====
section
/-! DEFINITION. The fuse unit (chapter 8): LOADING, the hard commits, programming and verification, and READ_FUSE. -/

namespace Sys2Proof.Machine

/-! ### LOADING: reading the slots (R151, R152, R154 step 2) -/

/-- The append pointer of the contents of an array (R152). -/
def appendPointerAt (array : List FuseWord) : Nat := appendPointerOf (array.map classifySlot)

/-- The state of slot k as read: by its contents, and SPOILED with TORN when BLANK below the append pointer (R151). -/
def slotKindAt (ptr k : Nat) (w : FuseWord) : SlotKind :=
  if classifySlot w = .blank ∧ k < ptr then .spoiled (.load .torn) else classifySlot w

/-- The image of slot k as read, before its record's turn. -/
def imageAt (ptr k : Nat) (w : FuseWord) : SlotImage where
  bits := w
  kind := slotKindAt ptr k w
  applied := none

/-! ### LOADING: applying the records (R155, R156, R154 step 3) -/

/-- A VALID slot treated as SPOILED: the cause recorded, applied false (R151). -/
def SlotImage.spoil (i : SlotImage) (c : LoadCause) : SlotImage :=
  { i with kind := .spoiled (.load c), applied := some false }

/-- The slot with its record applied (R155, R156). -/
def SlotImage.apply (i : SlotImage) : SlotImage := { i with applied := some true }

/-- The table after MAP(L, s) of slot k is applied: a HARD entry naming L is retired, keeping L and its slot, and entry s goes
from FREE to HARD (R155). -/
def applyMapTable (t : List Entry) (k l s : Nat) : List Entry :=
  match hardFor t l with
  | some h => (t.set h (entryAt t h).retire).set s (.hard l k)
  | none => t.set s (.hard l k)

/-- A VALID MAP slot's turn (R155). In LOADING an entry is FREE exactly when no record applied earlier names its spare. -/
def applyMap (limit : Nat) (t : List Entry) (k l s : Nat) (i : SlotImage) : List Entry × SlotImage :=
  if limit ≤ l then (t, i.spoil .range)
  else if entryAt t s ≠ .free then (t, i.spoil .conflict)
  else (applyMapTable t k l s, i.apply)

/-- A VALID BAN slot's turn (R156). -/
def applyBan (t : List Entry) (k s : Nat) (i : SlotImage) : List Entry × SlotImage :=
  if (entryAt t s).banned then (t, i.spoil .conflict)
  else (t.set s (.retired (entryAt t s).l? (some k) true false), i.apply)

/-- The turn of slot k (R154 step 3). -/
def applySlot (limit : Nat) (t : List Entry) (k : Nat) (i : SlotImage) : List Entry × SlotImage :=
  match i.kind with
  | .valid =>
    match fuseRecordOf i.bits with
    | .map l s => applyMap limit t k l s i
    | .ban s => applyBan t k s i
  | _ => (t, i)

/-- The turns of the slots from k on, in increasing slot order. -/
def applySlots (limit : Nat) : List Entry → Nat → List SlotImage → List Entry × List SlotImage
  | t, _, [] => (t, [])
  | t, k, i :: is =>
    let r := applySlot limit t k i
    let rest := applySlots limit r.1 (k + 1) is
    (rest.1, r.2 :: rest.2)

/-- The cause of a slot SPOILED after its turn. -/
def SlotImage.loadCause? (i : SlotImage) : Option LoadCause :=
  match i.kind with
  | .spoiled (.load c) => some c
  | _ => none

/-- The FUSE_SPOILED records of the slots from k on, in slot order (R154 step 3). -/
def spoiledRecords : Nat → List SlotImage → List Handed
  | _, [] => []
  | k, i :: is =>
    match i.loadCause? with
    | some c => { producer := .fuse, body := .fuseSpoiled k c, action := none } :: spoiledRecords (k + 1) is
    | none => spoiledRecords (k + 1) is

/-- The images of an array as read (R154 step 2). -/
def imagesOf (array : List FuseWord) : List SlotImage :=
  array.zipIdx.map fun x => imageAt (appendPointerAt array) x.2 x.1

/-- The table and images after every slot's turn, from a table with every entry FREE (R154 step 3). -/
def loadedOf (limit : Nat) (array : List FuseWord) : List Entry × List SlotImage :=
  applySlots limit (List.replicate Config.spares .free) 0 (imagesOf array)

/-- Steps 1 to 3 of LOADING: capacity sampled, slots read and classified, records applied, spoiled slots reported (R154). The
part is still LOADING (step 4 is READY). -/
def State.load (s : State) (cap : Capacity) : State :=
  let loaded := loadedOf (cap.blocks - Config.spares) s.fuseArray
  { s with
    table := loaded.1
    fuse :=
      { s.fuse with
        capacity := some cap, images := loaded.2.map some, appendPtr := some (appendPointerAt s.fuseArray) }
    recs := { s.recs with handed := s.recs.handed ++ spoiledRecords 0 loaded.2 } }

/-! ### COMMIT_HARD and COMMIT_BAN (R160, R161) -/

/-- The state with the programmer replaced. -/
def State.setProgrammer (s : State) (p : Programmer) : State := { s with fuse := { s.fuse with programmer := p } }

/-- The acceptance of a commit: programming starts at the append pointer, entry s is commit pending, and the payload gives
slot, kind, L and s (R16, R160, R161). -/
def State.acceptCommit (s : State) (slot : Nat) (record : FuseRecord) (l : Nat) : Reply where
  result := .accepted
  payload := be1 slot ++ be1 record.kind.number ++ be3 l ++ be1 record.spare
  after :=
    (s.setProgrammer (.programming slot record 0 0#40)).setEntry record.spare (entryAt s.table record.spare).setPending

/-- The checks common to both commits, in order: the programmer IDLE, FWE high, a slot free, s in range (R160, R161). -/
def State.commitCheck (s : State) (k : Nat) : Except ResultCode Nat :=
  if s.fuse.programmer ≠ .idle then .error .busy
  else if s.fwe = false then .error .locked
  else
    match s.fuse.appendPtr with
    | some ptr =>
      if Config.fuseSlots ≤ ptr then .error .noSlot
      else if Config.spares ≤ k then .error .range
      else .ok ptr
    | none => .error .noSlot

/-- COMMIT_HARD(s) (R160). DESIGN CHOICE (log 33), safe: for a waiting L the eighth check answers BUSY also where a row of
R160's table, COMMIT_HARD taken before the start of that L, says accepted. -/
def commitHardReply (k : Nat) (s : State) : Reply :=
  match s.commitCheck k with
  | .error r => s.refuse r
  | .ok ptr =>
    match entryAt s.table k with
    | .soft l commitPending =>
      if commitPending then s.refuse .busy
      else if s.mig.holds l then s.refuse .busy
      else s.acceptCommit ptr (.map l k) l
    | _ => s.refuse .state

/-- COMMIT_BAN(s) (R161). -/
def commitBanReply (k : Nat) (s : State) : Reply :=
  match s.commitCheck k with
  | .error r => s.refuse r
  | .ok ptr =>
    match entryAt s.table k with
    | .retired _ _ banned _ => if banned then s.refuse .already else s.acceptCommit ptr (.ban k) 0
    | _ => s.refuse .state

/-! ### Programming (R163) -/

/-- The state with bits programmed in the fuse array: a bit goes from 0 to 1 only. -/
def State.burn (s : State) (slot : Nat) (bits : FuseWord) : State :=
  { s with fuseArray := setFuse s.fuseArray slot fun w => w ||| bits }

/-- BIT_PROGRAMMED: the fuse array reports a bit the programmer is applying; the bit reads 1 from then on if it holds
(R163, log 20). -/
def bitProgrammedEffect (bit : Nat) (holds : Bool) (s : State) : State :=
  powered s fun s =>
    match s.fuse.programmer with
    | .programming slot record timer reported =>
      if applyingBit record.word reported bit then
        (s.setProgrammer (.programming slot record timer (reported ||| fuseBit bit))).burn slot
          (if holds then fuseBit bit else 0#40)
      else s
    | _ => s

/-- The bits programmed when the marker is reported: every bit of the record not yet reported, and the marker if it holds
(log 20). -/
def markerBits (word reported : FuseWord) (holds : Bool) : FuseWord :=
  (bodyBits word &&& ~~~reported) ||| (if holds then fuseBit 39 else 0#40)

/-- MARKER_PROGRAMMED: PROGRAMMING ends and VERIFYING starts (R163). -/
def markerProgrammedEffect (holds : Bool) (s : State) : State :=
  powered s fun s =>
    match s.fuse.programmer with
    | .programming slot record timer reported =>
      (s.setProgrammer (.verifying slot record timer)).burn slot (markerBits record.word reported holds)
    | _ => s

/-- PROGRAMMING_TIMEOUT: the programming timer comes to 190 ms (log 6), at which moment PROGRAMMING ends, the bits not yet
programmed stay 0 and VERIFYING starts (R163, `Programmer.pass`). -/
def programmingTimeoutEffect (s : State) : State :=
  powered s fun s =>
    match s.fuse.programmer with
    | .programming _ _ timer _ => s.passMilliseconds (Config.programmingLimit - timer)
    | _ => s

/-! ### Verification (R164, R165) -/

/-- The slot image after VERIFYING: VALID on a match, SPOILED with VERIFY otherwise; applied absent (R164, R165, R169). -/
def verifiedImage (bits : FuseWord) (isMatch : Bool) : SlotImage where
  bits := bits
  kind := if isMatch then .valid else .spoiled .verify
  applied := none

/-- The record that reports the end of VERIFYING (R164, R165). -/
def verifiedRecord (slot : Nat) (record : FuseRecord) (isMatch : Bool) : RecordBody :=
  if isMatch then .fuseDone slot record.spare record.kind else .fuseFailed slot record.spare

/-- The end of VERIFYING as one event: image, append pointer, entry s, record, IDLE; and a start event (R71, R164,
R165). -/
def State.endVerify (s : State) (slot : Nat) (record : FuseRecord) : State :=
  let bits := s.fuseArray.getD slot 0#40
  let isMatch := bits == record.word
  State.hand
    { s with
      table := s.table.set record.spare ((entryAt s.table record.spare).verified record slot isMatch)
      mig := { s.mig with startEvent := true }
      fuse :=
        { s.fuse with
          images := s.fuse.images.set slot (some (verifiedImage bits isMatch)),
          appendPtr := s.fuse.appendPtr.map (· + 1), programmer := .idle } }
    .fuse (verifiedRecord slot record isMatch)

/-- END_OF_VERIFYING (R164, R165). -/
def endOfVerifyingEffect (s : State) : State :=
  powered s fun s =>
    match s.fuse.programmer with
    | .verifying slot record _ => s.endVerify slot record
    | _ => s

/-! ### READ_FUSE (R169) -/

/-- The slot image of slot k; one that is absent reads as BLANK (it is present whenever READ_FUSE is executed). -/
def State.imageOf (s : State) (k : Nat) : SlotImage :=
  (s.fuse.images.getD k none).getD { bits := 0#40, kind := .blank, applied := none }

/-- The 40 bits as five bytes, bits 39..32 first (R199). -/
def fuseBytes (w : FuseWord) : List Byte :=
  [w.extractLsb' 32 8, w.extractLsb' 24 8, w.extractLsb' 16 8, w.extractLsb' 8 8, w.extractLsb' 0 8]

/-- The cause byte of a slot: 0xFF when not SPOILED (R201). -/
def SlotKind.causeByte : SlotKind → List Byte
  | .spoiled c => be1 c.number
  | _ => [0xFF#8]

/-- The flag byte of READ_FUSE: applied reported for a VALID slot, applied, fields decoded, being programmed (R169, R201). -/
def SlotImage.flags (i : SlotImage) (beingProgrammed : Bool) : Nat :=
  flagBit (i.kind == .valid && i.applied.isSome) 0 + flagBit (i.kind == .valid && i.applied == some true) 1 +
    flagBit (fuseMarker i.bits) 2 + flagBit beingProgrammed 3

/-- The fields decoded from the bits, for a slot whose marker is 1; 0 otherwise (R169, R201). -/
def SlotImage.fields (i : SlotImage) : List Byte :=
  if fuseMarker i.bits then
    be1 (fuseKindOf i.bits).number ++ be3 (fuseLOf i.bits) ++ be1 (fuseSOf i.bits)
  else List.replicate 5 0#8

/-- The append pointer byte: 0xFF while not yet set (R201). -/
def State.appendByte (s : State) : List Byte := be1 (s.fuse.appendPtr.getD 255)

/-- READ_FUSE(k) (R169). -/
def readFuseReply (k : Nat) (s : State) : Reply :=
  if 31 < k then s.refuse .range
  else
    let i := s.imageOf k
    s.report
      (be1 k ++ fuseBytes i.bits ++ be1 i.kind.number ++ i.kind.causeByte ++
        be1 (i.flags (s.fuse.programmer.slot? == some k)) ++ i.fields ++ s.appendByte ++ be1 s.fuse.programmer.number)

/-! ### Meanings -/

/-- COMMIT_HARD (R160). -/
def commitHardEffect (args : List Byte) (s : State) : State := command .commitHard args s (commitHardReply (ofBe args))

/-- COMMIT_HARD (R160). -/
def execCommitHard (args : List Byte) (s : State) : Host.Outcome State Fault Refusal := .next (commitHardEffect args s)

/-- COMMIT_BAN (R161). -/
def commitBanEffect (args : List Byte) (s : State) : State := command .commitBan args s (commitBanReply (ofBe args))

/-- COMMIT_BAN (R161). -/
def execCommitBan (args : List Byte) (s : State) : Host.Outcome State Fault Refusal := .next (commitBanEffect args s)

/-- READ_FUSE (R169). -/
def readFuseEffect (args : List Byte) (s : State) : State := command .readFuse args s (readFuseReply (ofBe args))

/-- READ_FUSE (R169). -/
def execReadFuse (args : List Byte) (s : State) : Host.Outcome State Fault Refusal := .next (readFuseEffect args s)

/-- BIT_PROGRAMMED (R163). -/
def execBitProgrammed (bit : Nat) (holds : Bool) (s : State) : Host.Outcome State Fault Refusal :=
  .next (bitProgrammedEffect bit holds s)

/-- MARKER_PROGRAMMED (R163). -/
def execMarkerProgrammed (holds : Bool) (s : State) : Host.Outcome State Fault Refusal :=
  .next (markerProgrammedEffect holds s)

/-- PROGRAMMING_TIMEOUT (R163). -/
def execProgrammingTimeout (s : State) : Host.Outcome State Fault Refusal := .next (programmingTimeoutEffect s)

/-- END_OF_VERIFYING (R164, R165). -/
def execEndOfVerifying (s : State) : Host.Outcome State Fault Refusal := .next (endOfVerifyingEffect s)

end Sys2Proof.Machine
end

