-- ==== Sys2Proof/Machine/Power.lean ====
section
/-! DEFINITION. Power, port reset, straps and ticks: POWER_ON, POWER_LOSS, READY, PRST_N, FWE, the 1 ms tick, and the
microsecond that passes on an empty queue. -/

namespace Sys2Proof.Machine

/-! ### Power (R153, R154, R167) -/

/-- POWER_ON: at the rise of PWR_OK every unit takes its power-on values and LOADING goes through its steps 1 to 3 (R153,
R154, log 8). The fuse array is the one thing a power loss leaves (R153). With MCS_N low no frame is open (R173). -/
def powerOnEffect (straps : Straps) (prstHigh mcsHigh : Bool) (s : State) : State :=
  (State.atRise s.fuseArray prstHigh straps.fweHigh (McsLine.found mcsHigh) s.pending).load (Capacity.ofStraps straps.cap)

/-- POWER_LOSS: at the fall of PWR_OK all state is lost but the fuse array; what the units would hold is not defined until the
next rise, and stands at the values of the rise (R153, R167, log 7). MSO goes to high impedance (R173). -/
def powerLossEffect (s : State) : State :=
  powered s fun s => { State.atRise s.fuseArray s.prstN s.fwe s.port.mcs s.pending with pwrOk := false }

/-! ### READY (R157) and the release of the links (R46, R49, R64) -/

/-- The request unit grants 64 credits, as one credit grant (R25, R26). -/
def State.grantCredits (s : State) : State :=
  State.sendUp { s with req := { s.req with credits := Config.trackerSlots } } (.credit (BitVec.ofNat 8 Config.trackerSlots))

/-- The units that follow READY with PRST_N high: 64 upstream credits, the downstream link released, patrol enabled if
PATROL_GAP is not 0 (R46, R49, R64, R122). -/
def State.release (s : State) : State :=
  State.grantCredits
    { s with
      arb := { s.arb with linkUp := true }
      patrol := { s.patrol with state := if s.params.patrolGap = 0 then s.patrol.state else .gap 0 } }

/-- A FUSE_SPOILED record of LOADING has been handed and not yet taken by the record unit (R154 step 3). -/
def RecordUnit.holdsLoading (r : RecordUnit) : Bool := r.handed.any fun h => h.producer == .fuse

/-- READY: the end of LOADING, once the capacity and the append pointer are set and the record unit has taken the records of
LOADING, so that a spoiled slot has driven ALERT_N low before (R154, R157); a start event. -/
def readyEffect (s : State) : State :=
  powered s fun s =>
    if s.isReady = true ∨ s.fuse.capacity = none ∨ s.fuse.appendPtr = none ∨ s.recs.holdsLoading = true then s
    else
      let s1 :=
        { s with fuse := { s.fuse with part := .ready }, mig := { s.mig with startEvent := true } }
      if s.prstN then s1.release else s1

/-! ### Port reset (R47, R63, R93, R94, R133, R148) -/

/-- The request unit empties itself without any response (R47). -/
def RequestUnit.emptied (r : RequestUnit) : RequestUnit where
  credits := 0
  slots := List.replicate r.slots.length none
  relay := []
  hold := []

/-- The arbiter at the falling edge: table empty, credits and background wait count 0, link in reset, pointer kept (R63). -/
def Arbiter.inReset (a : Arbiter) : Arbiter where
  credits := 0
  outstanding := []
  nextTag := a.nextTag
  bgWait := 0
  linkUp := false

/-- PRST_N_FALL: the request unit, the arbiter, the migration unit and the patrol unit take their parts of the falling edge
(R47, R63, R93, R94, R133). -/
def prstFallEffect (s : State) : State :=
  powered s fun s =>
    if s.prstN then
      State.migrationReset
        { s with prstN := false, req := s.req.emptied, arb := s.arb.inReset, patrol := { s.patrol with state := .off } }
    else s

/-- PRST_N_RISE: with the part READY the links are released and a start event is taken (R49, R63, R71, R95, R122); while
LOADING they wait for READY. -/
def prstRiseEffect (s : State) : State :=
  powered s fun s =>
    if s.prstN then s
    else
      let s1 := { s with prstN := true }
      if s.isReady then State.release { s1 with mig := { s1.mig with startEvent := true } } else s1

/-! ### Straps and clocks (R97, R159) -/

/-- FWE_CHANGE: the level of FWE (R159). -/
def fweChangeEffect (high : Bool) (s : State) : State := powered s fun s => { s with fwe := high }

/-- EPOCH_TICK: one tick of 1 ms (R97, R98, R149). -/
def epochTickEffect (s : State) : State := powered s fun s => s.passMilliseconds 1

/-- What `step` does on an empty queue: one microsecond passes (log 5). -/
def State.idle (s : State) : State := powered s fun s => s.passMicroseconds 1

/-! ### Meanings -/

/-- POWER_ON (R153). -/
def execPowerOn (straps : Straps) (prstHigh mcsHigh : Bool) (s : State) : Host.Outcome State Fault Refusal :=
  .next (powerOnEffect straps prstHigh mcsHigh s)

/-- POWER_LOSS (R167). -/
def execPowerLoss (s : State) : Host.Outcome State Fault Refusal := .next (powerLossEffect s)

/-- READY (R157). -/
def execReady (s : State) : Host.Outcome State Fault Refusal := .next (readyEffect s)

/-- PRST_N_FALL (R63). -/
def execPrstNFall (s : State) : Host.Outcome State Fault Refusal := .next (prstFallEffect s)

/-- PRST_N_RISE (R49). -/
def execPrstNRise (s : State) : Host.Outcome State Fault Refusal := .next (prstRiseEffect s)

/-- FWE_CHANGE (R159). -/
def execFweChange (high : Bool) (s : State) : Host.Outcome State Fault Refusal := .next (fweChangeEffect high s)

/-- EPOCH_TICK (R97). -/
def execEpochTick (s : State) : Host.Outcome State Fault Refusal := .next (epochTickEffect s)

end Sys2Proof.Machine
end

