-- ==== Sys2Proof/Machine/Records.lean ====
section
/-! DEFINITION. The record unit (chapter 7): taking a handed record, ALERT_N, READ_FAULTS and ACK_FAULTS, and the 16-byte
encoding of 11.4. -/

namespace Sys2Proof.Machine

/-! ### Taking a record (R137, R138, R140) -/

/-- The handed records `a` and `b` come of one RETIRE firing: its limit record and the TARGET_BAD it brings about (R108,
R111). -/
def ofOneFiring (a b : Handed) : Bool := a.firing.isSome && a.firing == b.firing

/-- Whether the handed record `a`, handed first, must be taken before `b`: records of one unit are taken in the order handed,
and the limit record of a firing before the TARGET_BAD of that same firing (R108, R137, log 13). -/
def takenBefore (a b : Handed) : Bool := a.producer == b.producer || ofOneFiring a b

/-- The handed record at position k may be taken next: no record handed before it must be taken first. -/
def mayTake (hs : List Handed) (k : Nat) : Bool :=
  match hs[k]? with
  | some h => (hs.take k).all fun a => !takenBefore a h
  | none => false

/-- The record unit storing a record (R138). -/
def RecordUnit.store (r : RecordUnit) (kinds : BitVec 16) (epoch : Epoch) (h : Handed) : RecordUnit :=
  let record : FaultRecord :=
    { seq := r.nextSeq, epoch := epoch, alert := alertCalled kinds h || r.alertMissed, missed := r.missed,
      body := h.body }
  let queue := r.queue ++ [record]
  { queue := queue, nextSeq := r.nextSeq + 1#16, missed := 0, alertMissed := false,
    alertLow := alertDrive queue false, handed := r.handed }

/-- The record unit dropping a record at a full queue (R140). -/
def RecordUnit.drop (r : RecordUnit) (kinds : BitVec 16) (h : Handed) : RecordUnit :=
  let alertMissed := r.alertMissed || alertCalled kinds h
  { r with missed := min 255 (r.missed + 1), alertMissed := alertMissed, alertLow := alertDrive r.queue alertMissed }

/-- The record unit taking a handed record: stored while the queue holds fewer than 64, dropped otherwise. -/
def RecordUnit.take (r : RecordUnit) (kinds : BitVec 16) (epoch : Epoch) (h : Handed) : RecordUnit :=
  if r.isFull then r.drop kinds h else r.store kinds epoch h

/-- TAKE_RECORD: the handed record at position k leaves the handed records and is taken (R137, R138, R140). -/
def takeRecordEffect (k : Nat) (s : State) : State :=
  powered s fun s =>
    match s.recs.handed[k]? with
    | none => s
    | some h =>
      if mayTake s.recs.handed k then
        { s with
          recs :=
            RecordUnit.take { s.recs with handed := s.recs.handed.eraseIdx k } s.params.alertKinds s.clock.epoch h }
      else s

/-! ### The 16-byte encoding (R203) -/

/-- The cause or origin code of a record, bits 3..0 of its flag byte (11.4). -/
def RecordBody.causeCode : RecordBody → Nat
  | .ceLimit _ _ _ .none => 0
  | .ceLimit _ _ _ .queueFull => 1
  | .ueLimit _ _ _ .none => 0
  | .ueLimit _ _ _ .queueFull => 1
  | .migAborted _ .manual => 0
  | .migAborted _ .portReset => 1
  | .migFailed _ .timeout => 0
  | .migFailed _ .retries => 1
  | .targetBad _ _ .writeFail => 0
  | .targetBad _ _ .writeTimeout => 1
  | .targetBad _ _ .errorLimit => 2
  | .spareBanned _ .patrol => 0
  | .spareBanned _ .errorLimit => 1
  | .respTimeout .request _ => 0
  | .respTimeout .patrol _ => 1
  | .fuseDone _ _ kind => kind.number
  | .fuseSpoiled _ cause => cause.number
  | _ => 0

/-- Bit 6 of the flag byte: L present, for CE_LIMIT and UE_LIMIT (11.4). -/
def RecordBody.lPresent : RecordBody → Bool
  | .ceLimit _ l _ _ => l.isSome
  | .ueLimit _ l _ _ => l.isSome
  | _ => false

/-- The operand bytes a kind uses, from byte 9 on (11.4). -/
def RecordBody.operands : RecordBody → List Byte
  | .ceLimit p l count _ => be3 p ++ be3 (l.getD 0) ++ be1 count
  | .ueLimit p l count _ => be3 p ++ be3 (l.getD 0) ++ be1 count
  | .copyPoison l line s => be3 l ++ be1 line ++ be3 s
  | .migDone l s t => be3 l ++ be3 s ++ be1 t
  | .migAborted l _ => be3 l
  | .migFailed l _ => be3 l
  | .targetBad l t _ => be3 l ++ be1 t
  | .noSpare l => be3 l
  | .spareBanned s _ => be1 s
  | .respTimeout _ p => be3 p
  | .lateResponse p => be3 p
  | .fuseDone slot s _ => be1 slot ++ be1 s
  | .fuseFailed slot s => be1 slot ++ be1 s
  | .fuseSpoiled slot _ => be1 slot
  | .suspectFull p => be3 p

/-- The 16 bytes of a fault record; operand bytes not used are 0 (R203, 11.4). -/
def FaultRecord.bytes (r : FaultRecord) : List Byte :=
  be2 r.seq.toNat ++ be1 r.body.kindCode ++
    be1 (flagBit r.alert 7 + flagBit r.body.lPresent 6 + r.body.causeCode) ++ be1 r.missed ++ be4 r.epoch.toNat ++
    r.body.operands ++ List.replicate (7 - r.body.operands.length) 0#8

/-! ### READ_FAULTS and ACK_FAULTS (R142, R143) -/

/-- READ_FAULTS(i, n) (R142). -/
def readFaultsReply (i n : Nat) (s : State) : Reply :=
  if 63 < i ∨ n < 1 ∨ 3 < n then s.refuse .range
  else if s.recs.queue.length ≤ i then s.refuse .none
  else s.report (((s.recs.queue.drop i).take n).flatMap FaultRecord.bytes)

/-- The record unit with the records through position i removed; ALERT_N is set from the queue as it then stands (R143). -/
def RecordUnit.removeThrough (r : RecordUnit) (i : Nat) : RecordUnit :=
  { r with queue := r.queue.drop (i + 1), alertLow := alertDrive (r.queue.drop (i + 1)) r.alertMissed }

/-- ACK_FAULTS(seq) (R143). -/
def ackFaultsReply (seq : Nat) (s : State) : Reply :=
  match s.recs.queue.findIdx? fun r => r.seq.toNat == seq with
  | none => s.refuse .none
  | some i =>
    { result := .ok
      payload := be1 (i + 1) ++ be1 (s.recs.removeThrough i).queue.length
      after := { s with recs := s.recs.removeThrough i } }

/-! ### Meanings -/

/-- TAKE_RECORD (R138). -/
def execTakeRecord (k : Nat) (s : State) : Host.Outcome State Fault Refusal := .next (takeRecordEffect k s)

/-- READ_FAULTS (R142). -/
def readFaultsEffect (args : List Byte) (s : State) : State :=
  command .readFaults args s (readFaultsReply (ofBe (args.take 1)) (ofBe (args.drop 1)))

/-- READ_FAULTS (R142). -/
def execReadFaults (args : List Byte) (s : State) : Host.Outcome State Fault Refusal := .next (readFaultsEffect args s)

/-- ACK_FAULTS (R143). -/
def ackFaultsEffect (args : List Byte) (s : State) : State := command .ackFaults args s (ackFaultsReply (ofBe args))

/-- ACK_FAULTS (R143). -/
def execAckFaults (args : List Byte) (s : State) : Host.Outcome State Fault Refusal := .next (ackFaultsEffect args s)

end Sys2Proof.Machine
end

