-- ==== Sys2Proof/Machine/Status.lean ====
section
/-! DEFINITION. GET_STATUS (R187, R188). -/

namespace Sys2Proof.Machine

/-- The entries in the state with a number (R187). -/
def countEntries (t : List Entry) (n : Nat) : Nat := t.countP fun e => e.number == n

/-- The occupancy of the suspect table (R99). -/
def WatchUnit.occupancy (w : WatchUnit) : Nat := w.suspects.countP Option.isSome

/-- The L and P of the context, 0 when absent (R187, R201). -/
def Context.statusBytes (c : Context) : List Byte :=
  match c with
  | .idle => List.replicate 4 0#8
  | .copying m p _ => be3 m.req.l ++ be1 p
  | .finishing m => be3 m.req.l ++ be1 Config.quads

/-- The oldest sequence number, 0 when the queue is empty (R201). -/
def RecordUnit.oldest (r : RecordUnit) : Nat :=
  match r.queue with
  | x :: _ => x.seq.toNat
  | [] => 0

/-- The state whose items GET_STATUS reports: this one, or during LOADING the one at the rise of PWR_OK (R188). -/
def State.statusView (s : State) : State :=
  if s.isReady then s else State.atRise s.fuseArray s.prstN s.fwe s.port.mcs s.pending

/-- The counts of the map unit, bytes 6 to 11 (R201). -/
def mapItems (t : List Entry) : List Byte :=
  be1 (countEntries t 0) ++ be1 (countEntries t 1) ++ be1 (countEntries t 2) ++ be1 (countEntries t 3) ++
    be1 (countEntries t 4) ++ be1 (t.countP Entry.banned)

/-- The items of the migration unit, bytes 12 to 17 (R201). -/
def MigrationUnit.items (m : MigrationUnit) : List Byte :=
  be1 m.context.number ++ m.context.statusBytes ++ be1 m.occupancy

/-- The items of the record unit but its flags, bytes 18 to 23 (R201). -/
def RecordUnit.items (r : RecordUnit) : List Byte :=
  be1 r.queue.length ++ be2 r.oldest ++ be2 r.nextSeq.toNat ++ be1 r.missed

/-- The payload of GET_STATUS, 33 bytes: the items of unit x are read from the state `src x`, and during LOADING those that are
not the fuse unit's, the epoch or the PRST_N level at their power-on values (R187, R188, R201). -/
def statusBytes (src : StatusUnit → State) : List Byte :=
  let view := fun x => (src x).statusView
  be1 (src .fuse).fuse.part.number ++ be4 (src .watch).clock.epoch.toNat ++
    be1 (flagBit (src .pin).prstN 0 + flagBit (src .fuse).fwe 1 + flagBit (view .records).recs.alertLow 2) ++
    mapItems (view .map).table ++ (view .migration).mig.items ++ (view .records).recs.items ++
    be1 (flagBit (view .records).recs.alertMissed 0 + flagBit (view .watch).watch.fullReported 1) ++
    be1 (src .fuse).fuse.programmer.number ++ (src .fuse).appendByte ++ be1 (view .watch).watch.occupancy ++
    be1 (view .request).req.inUse ++ be1 (view .request).req.orphans ++
    be2 (view .arbiter).arb.outstanding.length ++ be1 (view .patrol).patrol.state.number

/-! ### An event taken together with GET_STATUS (R184, R187) -/

/-- What an event of a unit does, for the commands that are such events: neither a frame of the port, since two commands are
never taken together (R184), nor the rise or fall of PWR_OK. -/
def eventEffect (c : Instr) (s : State) : Option State :=
  match c with
  | .ready => some (readyEffect s)
  | .prstNFall => some (prstFallEffect s)
  | .prstNRise => some (prstRiseEffect s)
  | .upstreamRequest kind tag code addr beats => some (upstreamRequestEffect kind tag code addr beats s)
  | .issueGrant => some (issueGrantEffect s)
  | .downstreamResponse tag status beats first => some (downstreamResponseEffect tag status beats first s)
  | .downstreamCreditGrant count => some (creditGrantEffect count s)
  | .statusReport k => some (statusReportEffect k s)
  | .targetFailure k => some (targetFailureEffect k s)
  | .start => some (startEffect s)
  | .claim => some (claimEffect s)
  | .claimDrainMet => some (claimDrainMetEffect s)
  | .commit => some (commitEffect s)
  | .copyDeadlineExpiry => some (copyDeadlineEffect s)
  | .slotDeadlineExpiry k => some (slotDeadlineEffect k s)
  | .patrolDeadlineExpiry => some (patrolDeadlineEffect s)
  | .gapExpiry => some (gapExpiryEffect s)
  | .issueAttempt => some (issueAttemptEffect s)
  | .decayExpiry => some (decayExpiryEffect s)
  | .takeRecord k => some (takeRecordEffect k s)
  | .markerProgrammed holds => some (markerProgrammedEffect holds s)
  | .programmingTimeout => some (programmingTimeoutEffect s)
  | .endOfVerifying => some (endOfVerifyingEffect s)
  | .epochTick => some (epochTickEffect s)
  | .bitProgrammed bit holds => some (bitProgrammedEffect bit holds s)
  | .fweChange high => some (fweChangeEffect high s)
  | _ => none

/-- The state once the event taken together with the command has been taken: the event that waits at the front of the queue, if
it happens now and not later (log 31). -/
def State.withEvent (s : State) : State :=
  match s.pending with
  | c :: _ =>
    match eventEffect c s with
    | some u => if u.clock.now = s.clock.now then u else s
    | none => s
  | [] => s

/-- GET_STATUS: an event taken together with it has been taken as far as the items of the units in `ahead` are concerned
(R187, R188). The command changes no state, and the event stays to be taken. -/
def getStatusReply (ahead : List StatusUnit) (s : State) : Reply :=
  s.report (statusBytes fun x => if x ∈ ahead then s.withEvent else s)

/-! ### Meanings -/

/-- GET_STATUS (R187). -/
def getStatusEffect (frame : StatusFrame) (s : State) : State :=
  command .getStatus frame.args s (getStatusReply frame.ahead)

/-- GET_STATUS (R187). -/
def execGetStatus (frame : StatusFrame) (s : State) : Host.Outcome State Fault Refusal :=
  .next (getStatusEffect frame s)

end Sys2Proof.Machine
end

