-- ==== Sys2Proof/Machine/FrameEnd.lean ====
section
/-! DEFINITION. The end of a frame (R177, R182): a malformed frame, and a frame whose code is not assigned. -/

namespace Sys2Proof.Machine

/-- The command frame with an assigned code, executed by its owning unit (R182, R184). -/
def runCommand (c : Command) (args : List Byte) (s : State) : State :=
  match c with
  | .getStatus => getStatusEffect { args := args, ahead := [] } s
  | .resultRead => resultReadEffect args 0 s
  | .getParam => getParamEffect args s
  | .setParam => setParamEffect args s
  | .readMap => readMapEffect args s
  | .mapSoft => mapSoftEffect args s
  | .unmapSoft => unmapSoftEffect args s
  | .banSpare => banSpareEffect args s
  | .retire => retireEffect args s
  | .cancelRetire => cancelRetireEffect args s
  | .abortMigration => abortMigrationEffect args s
  | .readMigration => readMigrationEffect args s
  | .readSuspect => readSuspectEffect args s
  | .clearSuspect => clearSuspectEffect args s
  | .rearm => rearmEffect args s
  | .readFaults => readFaultsEffect args s
  | .ackFaults => ackFaultsEffect args s
  | .commitHard => commitHardEffect args s
  | .commitBan => commitBanEffect args s
  | .readFuse => readFuseEffect args s

/-- A whole frame with an accepted check: its command is executed, or answered UNKNOWN when the code is not assigned (R182,
R200). -/
def runFrame (code : Byte) (args : List Byte) (s : State) : State :=
  match Command.ofCode code with
  | some c => runCommand c args s
  | none => atPort s fun s => s.holdResult code .unknown [] (frameLengthOf args)

/-- The payload of a FRAME result: the reason, and the whole bytes received, saturating at 255 (R177, R200). -/
def framePayload (reason : FrameReason) (count : Nat) : List Byte := [reason.byte] ++ be1 (min 255 count)

/-- What the port does with the MSI levels of a frame at the rise of MCS_N (R172, R176, R177, R182). -/
def endFrame (msi : List Bool) (s : State) : State :=
  let bytes := bytesOfBits msi
  match frameOfBits msi with
  | .readFrame => atPort s fun s => s.sendResult (bytes.length - 3)
  | .malformed reason =>
    atPort s fun s => s.holdResult (bytes.headD 0#8) .frame (framePayload reason bytes.length) bytes.length
  | .command code args => runFrame code args s

/-! ### Meanings -/

/-- MALFORMED_FRAME (R177); levels that make no malformed frame are taken for the frame they make (log 27). -/
def execMalformedFrame (edges : Nat) (msi : BitVec edges) (s : State) : Host.Outcome State Fault Refusal :=
  .next (endFrame (levelsOf msi) s)

/-- UNKNOWN_COMMAND (R182); an assigned code executes its command (log 27). -/
def execUnknownCommand (code : Byte) (args : List Byte) (s : State) : Host.Outcome State Fault Refusal :=
  .next (runFrame code args s)

end Sys2Proof.Machine
end

