-- ==== Sys2Proof/Machine/Dispatch.lean ====
section
/-! DEFINITION. One arm per command: the meaning of each row of opcode_table.json. -/

namespace Sys2Proof.Machine

/-- The effect of a command on everything but the queue. -/
def exec (i : Instr) (s : State) : Host.Outcome State Fault Refusal :=
  match i with
  | .powerOn straps prstHigh mcsHigh => Sys2Proof.Machine.execPowerOn straps prstHigh mcsHigh s
  | .powerLoss => Sys2Proof.Machine.execPowerLoss s
  | .ready => Sys2Proof.Machine.execReady s
  | .prstNFall => Sys2Proof.Machine.execPrstNFall s
  | .prstNRise => Sys2Proof.Machine.execPrstNRise s
  | .upstreamRequest kind tag sizeCode addr beats => Sys2Proof.Machine.execUpstreamRequest kind tag sizeCode addr beats s
  | .upstreamOtherMessage type => Sys2Proof.Machine.execUpstreamOtherMessage type s
  | .issueGrant => Sys2Proof.Machine.execIssueGrant s
  | .downstreamResponse tag status beats reportFirst => Sys2Proof.Machine.execDownstreamResponse tag status beats reportFirst s
  | .downstreamCreditGrant count => Sys2Proof.Machine.execDownstreamCreditGrant count s
  | .downstreamOtherMessage type => Sys2Proof.Machine.execDownstreamOtherMessage type s
  | .statusReport k => Sys2Proof.Machine.execStatusReport k s
  | .targetFailure k => Sys2Proof.Machine.execTargetFailure k s
  | .start => Sys2Proof.Machine.execStart s
  | .claim => Sys2Proof.Machine.execClaim s
  | .claimDrainMet => Sys2Proof.Machine.execClaimDrainMet s
  | .commit => Sys2Proof.Machine.execCommit s
  | .copyDeadlineExpiry => Sys2Proof.Machine.execCopyDeadlineExpiry s
  | .slotDeadlineExpiry slot => Sys2Proof.Machine.execSlotDeadlineExpiry slot s
  | .patrolDeadlineExpiry => Sys2Proof.Machine.execPatrolDeadlineExpiry s
  | .gapExpiry => Sys2Proof.Machine.execGapExpiry s
  | .issueAttempt => Sys2Proof.Machine.execIssueAttempt s
  | .decayExpiry => Sys2Proof.Machine.execDecayExpiry s
  | .takeRecord k => Sys2Proof.Machine.execTakeRecord k s
  | .markerProgrammed holds => Sys2Proof.Machine.execMarkerProgrammed holds s
  | .programmingTimeout => Sys2Proof.Machine.execProgrammingTimeout s
  | .endOfVerifying => Sys2Proof.Machine.execEndOfVerifying s
  | .malformedFrame edges msi => Sys2Proof.Machine.execMalformedFrame edges msi s
  | .unknownCommand code args => Sys2Proof.Machine.execUnknownCommand code args s
  | .getStatus frame => Sys2Proof.Machine.execGetStatus frame s
  | .resultRead args clocked => Sys2Proof.Machine.execResultRead args clocked s
  | .getParam args => Sys2Proof.Machine.execGetParam args s
  | .setParam args => Sys2Proof.Machine.execSetParam args s
  | .readMap args => Sys2Proof.Machine.execReadMap args s
  | .mapSoft args => Sys2Proof.Machine.execMapSoft args s
  | .unmapSoft args => Sys2Proof.Machine.execUnmapSoft args s
  | .banSpare args => Sys2Proof.Machine.execBanSpare args s
  | .retire args => Sys2Proof.Machine.execRetire args s
  | .cancelRetire args => Sys2Proof.Machine.execCancelRetire args s
  | .abortMigration args => Sys2Proof.Machine.execAbortMigration args s
  | .readMigration args => Sys2Proof.Machine.execReadMigration args s
  | .readSuspect args => Sys2Proof.Machine.execReadSuspect args s
  | .clearSuspect args => Sys2Proof.Machine.execClearSuspect args s
  | .rearm args => Sys2Proof.Machine.execRearm args s
  | .readFaults args => Sys2Proof.Machine.execReadFaults args s
  | .ackFaults args => Sys2Proof.Machine.execAckFaults args s
  | .commitHard args => Sys2Proof.Machine.execCommitHard args s
  | .commitBan args => Sys2Proof.Machine.execCommitBan args s
  | .readFuse args => Sys2Proof.Machine.execReadFuse args s
  | .epochTick => Sys2Proof.Machine.execEpochTick s
  | .bitProgrammed bit holds => Sys2Proof.Machine.execBitProgrammed bit holds s
  | .fweChange high => Sys2Proof.Machine.execFweChange high s

end Sys2Proof.Machine
end

