-- ==== Sys2Proof/Machine/Step.lean ====
section
/-! DEFINITION. One step of the part: the command at the front of the queue, or one microsecond on an empty queue. -/

namespace Sys2Proof.Machine

/-- The command at the front of the queue is taken and run on the queue's rest; on an empty queue one microsecond passes
(log 5). -/
def step (s : State) : Host.Outcome State Fault Refusal :=
  match s.pending with
  | c :: rest => exec c { s with pending := rest }
  | [] => .next s.idle

/-- The state with the command a table word spells put at the front of the queue; no word spells one, since the opcode table
gives no bits. -/
def State.withFetchWord (s : State) (nbits w : Nat) : State :=
  match decodeTableWord nbits w with
  | some c => { s with pending := c :: s.pending }
  | none => s

end Sys2Proof.Machine
end

