-- ==== Sys2Proof/Safety.lean ====
section
/-! DEFINITION. What the spec says holds at all times: the laws each unit keeps, as decidable propositions over State. -/

namespace Sys2Proof.Machine

/-! ### Record unit (R135, R145) -/

/-- ALERT_N is driven low exactly while the queue holds a record with its alert flag set or the alert-missed flag is set
(R145). -/
def AlertLaw (s : State) : Prop :=
  s.recs.alertLow = true ↔ (∃ r ∈ s.recs.queue, r.alert = true) ∨ s.recs.alertMissed = true

/-- The queue holds at most 64 records, oldest first, with consecutive sequence numbers, the newest one below the next
sequence number, modulo 65,536 (R135). -/
def QueueLaw (s : State) : Prop :=
  s.recs.queue.length ≤ 64 ∧ s.recs.missed ≤ 255 ∧
    s.recs.queue.map (·.seq) =
      (List.range s.recs.queue.length).map fun i =>
        s.recs.nextSeq - BitVec.ofNat 16 (s.recs.queue.length - i)

/-! ### Error watch unit (R99) -/

/-- The blocks the suspect entries name, by position. -/
def WatchUnit.blocks (w : WatchUnit) : List Nat := w.suspects.filterMap fun x => x.map Suspect.block

/-- The table has 32 positions, no two entries name the same physical block, and the counts lie in 0..255 (R99). -/
def SuspectLaw (s : State) : Prop :=
  s.watch.suspects.length = 32 ∧ s.watch.blocks.Nodup ∧
    ∀ x ∈ s.watch.suspects, ∀ e ∈ x, e.ce ≤ 255 ∧ e.ue ≤ 255

/-- The decay timer count lies below the decay period, and is 0 while an expiry is due; while DECAY_PERIOD is 0 it is held at 0
and none is due (R98). -/
def DecayLaw (s : State) : Prop :=
  (s.params.decayPeriod = 0 → s.watch.decayCount = 0 ∧ s.watch.decayDue = false) ∧
    (s.params.decayPeriod ≠ 0 →
      s.watch.decayCount < s.params.decayPeriod * 100 ∧ (s.watch.decayDue = true → s.watch.decayCount = 0))

/-! ### Issue arbiter (R51, R52, R55) -/

/-- No tag has two entries, the credits lie in 0..128 and the background wait count in 0..64 (R51, R52, R55). -/
def TagLaw (s : State) : Prop :=
  (s.arb.outstanding.map Prod.fst).Nodup ∧ s.arb.credits ≤ 128 ∧ s.arb.bgWait ≤ 64

/-- The downstream link is out of reset exactly while the part is powered and READY with PRST_N high (R63, R64). -/
def LinkLaw (s : State) : Prop := s.arb.linkUp = (s.pwrOk && s.isReady && s.prstN)

/-! ### Request unit (R24, R25, R30, R32) -/

/-- While the part is READY with PRST_N high, the credits granted and not yet seen used and the slots in use equal 64; outside
it there is neither (R25, R46, R48). -/
def CreditLaw (s : State) : Prop :=
  s.req.slots.length = 64 ∧
    if s.pwrOk = true ∧ s.isReady = true ∧ s.prstN = true then s.req.credits + s.req.inUse = 64
    else s.req.credits = 0 ∧ s.req.inUse = 0

/-- The fields a slot has in its state (R24): no half, merged status or answer before issue; a half outstanding from issue on;
answered exactly in ORPHAN. -/
def Slot.lawful (x : Slot) : Prop :=
  match x.state with
  | .queued => x.first = none ∧ x.second = none ∧ x.merged = none ∧ x.answered = false
  | .held => x.first = none ∧ x.second = none ∧ x.merged = none ∧ x.answered = false
  | .active => x.anyOutstanding = true ∧ x.answered = false
  | .orphan => x.anyOutstanding = true ∧ x.answered = true

/-- Slot k is in use in a given state. -/
def State.slotIn (s : State) (k : Nat) (st : SlotState) : Bool := ((s.slot? k).map Slot.state) == some st

/-- The entry under a tag belongs to a half that its slot has OUTSTANDING under that tag (R24, R52). -/
def State.halfOf (s : State) (k : Nat) (t : Tag) : Bool :=
  match s.slot? k with
  | some x =>
    ((x.state == .active) || (x.state == .orphan)) &&
      ((match x.first with
        | some h => h.outstanding && h.tag == t
        | none => false) ||
      (match x.second with
        | some h => h.outstanding && h.tag == t
        | none => false))
  | none => false

/-- The entry's owner waits for it, when its owner is a tracker slot (R24). -/
def State.ownerWaits (s : State) (x : Tag × OutEntry) : Bool :=
  match x.2.owner with
  | .request k => s.halfOf k x.1
  | _ => true

/-- The relay queue holds each QUEUED slot once and no other; the hold buffer each HELD slot once and no other, at most 4, all of
the locked quad; every slot has the fields of its state, and every REQUEST entry is an outstanding half of its slot (R24,
R30, R32). -/
def TrackerLaw (s : State) : Prop :=
  s.req.slots.length = 64 ∧ s.req.relay.Nodup ∧ s.req.hold.Nodup ∧ s.req.hold.length ≤ 4 ∧
    (∀ k ∈ s.req.relay, s.slotIn k .queued = true) ∧ (∀ k ∈ s.req.hold, s.slotIn k .held = true) ∧
    (∀ k < 64, s.slotIn k .queued = true → k ∈ s.req.relay) ∧ (∀ k < 64, s.slotIn k .held = true → k ∈ s.req.hold) ∧
    (∀ k ∈ s.req.hold, ∀ x ∈ s.slot? k, s.mig.context.locks x.l x.q = true) ∧
    (∀ x ∈ s.req.slots, ∀ y ∈ x, y.lawful) ∧
    (∀ x ∈ s.arb.outstanding, s.ownerWaits x = true) ∧
    (s.arb.outstanding.map Prod.fst).Nodup

/-! ### Migration unit and map unit (R4, R5, R10, R65, R66, R70) -/

/-- The logical blocks in the retire queue: the active one's, then the waiting ones'. -/
def MigrationUnit.blocks (m : MigrationUnit) : List Nat := m.context.l?.toList ++ m.waiting.map RetireRequest.l

/-- No logical block appears twice in the retire queue and the active migration, and the occupancy is at most 8 (R65, R66). -/
def RetireLaw (s : State) : Prop := s.mig.blocks.Nodup ∧ s.mig.occupancy ≤ 8

/-- The entry is RESERVED. -/
def Entry.isReserved : Entry → Bool
  | .reserved _ => true
  | _ => false

/-- Entry k is RESERVED for L, and no other entry is RESERVED (R5, R10). -/
def State.onlyReserved (s : State) (k l : Nat) : Prop :=
  entryAt s.table k = .reserved l ∧ ∀ j < 128, (entryAt s.table j).isReserved = true → j = k

/-- What the context says of the table: no entry RESERVED in IDLE; else exactly the target, for the migration's L, whose
translation is the source (R10, R70). -/
def State.contextAgrees (s : State) : Prop :=
  match s.mig.context with
  | .idle => ∀ e ∈ s.table, e.isReserved = false
  | .copying m p _ =>
    p < 64 ∧ m.req.l < s.limit ∧ m.target < 128 ∧ m.source = s.translate m.req.l ∧
      s.onlyReserved m.target m.req.l
  | .finishing m =>
    m.req.l < s.limit ∧ m.target < 128 ∧ m.source = s.translate m.req.l ∧
      s.onlyReserved m.target m.req.l

/-- Each logical block is named by at most one entry in SOFT or HARD and at most one in RESERVED; the L of every entry and of
every request is below the logical limit; the migration context and the table agree (R4, R5, R10, R65). -/
def MapLaw (s : State) : Prop :=
  s.table.length = 128 ∧ (s.table.filterMap Entry.serves?).Nodup ∧
    (∀ e ∈ s.table, ∀ l ∈ e.l?, l < s.limit) ∧ (∀ r ∈ s.mig.waiting, r.l < s.limit) ∧ s.contextAgrees

/-! ### Fuse unit (R149, R152, R162) -/

/-- The programming slot is the append pointer, below 32 (R160, R161). -/
def State.programmerAtPointer (s : State) : Prop :=
  ∀ k ∈ s.fuse.programmer.slot?, s.fuse.appendPtr = some k ∧ k < 32

/-- PROGRAMMING lasts while the programming timer is below 190 ms, and the timer stays within 200 ms (R149, R163). -/
def Programmer.inTime (p : Programmer) : Prop :=
  match p with
  | .idle => True
  | .programming _ _ timer _ => timer < 190
  | .verifying _ _ timer => timer ≤ 200

/-- A spare is commit pending only while the record being programmed names it; the programming slot is the append pointer;
PROGRAMMING ends by 190 ms; the array has 32 slots and the pointer is at most 32; a READY part has a capacity and a
pointer (R149, R152, R162, R163). -/
def FuseLaw (s : State) : Prop :=
  s.fuseArray.length = 32 ∧
  (∀ k < s.table.length, (entryAt s.table k).commitPending = true →
      s.fuse.programmer.record?.map FuseRecord.spare = some k) ∧
    s.programmerAtPointer ∧ s.fuse.programmer.inTime ∧ (∀ p ∈ s.fuse.appendPtr, p ≤ 32) ∧
    (s.isReady = true → s.fuse.capacity.isSome = true ∧ s.fuse.appendPtr.isSome = true)

/-! ### Patrol unit (R121, R122, R126) -/

/-- The fields of the patrol unit in its state: the gap count within PATROL_GAP; the read block and quad equal to the
cursor (R121). -/
def State.patrolAgrees (s : State) : Prop :=
  match s.patrol.state with
  | .off => True
  | .gap n => n ≤ s.params.patrolGap
  | .seeking => True
  | .offered b q => b = s.patrol.block ∧ q = s.patrol.quad
  | .reading b q _ _ => b = s.patrol.block ∧ q = s.patrol.quad

/-- The cursor lies in the memory; outside OFF the part is READY with PRST_N high; outside OFF and READING the gap is not 0;
the fields agree with the state (R121, R122, R132). -/
def PatrolLaw (s : State) : Prop :=
  s.patrol.quad < 64 ∧ (s.patrol.block < s.capacityBlocks ∨ s.patrol.block = 0) ∧
    (s.patrol.state ≠ .off → s.isReady = true ∧ s.prstN = true) ∧
    (s.patrol.state.number = 1 ∨ s.patrol.state.number = 2 ∨ s.patrol.state.number = 3 → s.params.patrolGap ≠ 0) ∧
    s.patrolAgrees

/-! ### Parameters (R189, R190, R194) -/

/-- Every parameter is in its range, and so is every retry count (R65, R189). -/
def ParamsLaw (s : State) : Prop :=
  (∀ p ∈ [Param.ceLimit, .ueLimit, .ceAction, .ueAction, .rearmMode, .decayPeriod, .patrolGap, .bgShare, .respTimeout,
      .retryLimit, .alertKinds], p.inRange (s.params.value p) = true) ∧
    (∀ r ∈ s.mig.waiting, r.retry ≤ 3) ∧
    (match s.mig.context with
      | .idle => True
      | .copying m _ _ => m.req.retry ≤ 3
      | .finishing m => m.req.retry ≤ 3)

/-! ### What a frame's command leaves behind -/

/-- The state in which a command frame with n argument bytes has been answered: the held result replaced, filler on MSO in
all of its n + 3 bytes and high impedance from its end, nothing else changed (R178, R180). -/
def State.answered (s : State) (c : Command) (n : Nat) (r : ResultCode) (payload : List Byte) : State :=
  { s with
    port :=
      { s.port with
        result := { command := c.code, result := r, payload := payload }, mso := .highZ,
        sent := some (List.replicate (n + 3) 0xFF#8) } }

/-- A frame of the port is taken: the part is powered, and MCS_N has been high since (R153, R173). -/
def State.takesFrames (s : State) : Prop := s.pwrOk = true ∧ s.port.mcs = .high

/-- The part can execute a command: it takes frames and is READY (R153, R173, R182). -/
def State.accepts (s : State) : Prop := s.pwrOk = true ∧ s.port.mcs = .high ∧ s.isReady = true

/-- The command of opcode_table.json that carries a frame's command, with no byte clocked after a read frame's opening; `ahead`
is GET_STATUS's operand. -/
def Command.instr (c : Command) (args : List Byte) (ahead : List StatusUnit := []) : Instr :=
  match c with
  | .getStatus => .getStatus { args := args, ahead := ahead }
  | .resultRead => .resultRead args 0
  | .getParam => .getParam args
  | .setParam => .setParam args
  | .readMap => .readMap args
  | .mapSoft => .mapSoft args
  | .unmapSoft => .unmapSoft args
  | .banSpare => .banSpare args
  | .retire => .retire args
  | .cancelRetire => .cancelRetire args
  | .abortMigration => .abortMigration args
  | .readMigration => .readMigration args
  | .readSuspect => .readSuspect args
  | .clearSuspect => .clearSuspect args
  | .rearm => .rearm args
  | .readFaults => .readFaults args
  | .ackFaults => .ackFaults args
  | .commitHard => .commitHard args
  | .commitBan => .commitBan args
  | .readFuse => .readFuse args

/-! ### Questions the statements ask -/

/-- Tag t is the first free one at or after the pointer, counting upward and wrapping from 255 to 0 (R52). -/
def FirstFreeTag (held : List Tag) (pointer t : Tag) : Prop :=
  t ∉ held ∧ ∀ n < (t - pointer).toNat, pointer + BitVec.ofNat 8 n ∈ held

/-- A request-path write is outstanding to quad q of block p (R53). -/
def State.drainsQuad (s : State) (p q : Nat) : Prop :=
  ∃ x ∈ s.arb.outstanding, (∃ k, x.2.owner = .request k) ∧ x.2.dir = .write ∧ x.2.block = p ∧ x.2.quad = q

/-- A request-path write is outstanding to block p (R53). -/
def State.drainsBlock (s : State) (p : Nat) : Prop :=
  ∃ x ∈ s.arb.outstanding, (∃ k, x.2.owner = .request k) ∧ x.2.dir = .write ∧ x.2.block = p

/-- A request-path write other than that under `tag` is outstanding to quad q of block p (R53). -/
def State.drainsQuadBeside (s : State) (tag : Tag) (p q : Nat) : Prop :=
  ∃ x ∈ s.arb.outstanding, x.1 ≠ tag ∧ (∃ k, x.2.owner = .request k) ∧ x.2.dir = .write ∧ x.2.block = p ∧ x.2.quad = q

/-- A request-path write other than that under `tag` is outstanding to block p (R53). -/
def State.drainsBlockBeside (s : State) (tag : Tag) (p : Nat) : Prop :=
  ∃ x ∈ s.arb.outstanding, x.1 ≠ tag ∧ (∃ k, x.2.owner = .request k) ∧ x.2.dir = .write ∧ x.2.block = p

/-- The migration waits for no write to the block and quad of the entry: neither in CLAIMED for its quad nor in FINISHING for its
block (R53). -/
def State.waitsForNone (s : State) (e : OutEntry) : Prop :=
  (∀ m p, s.mig.context = .copying m p (some .claimed) → ¬(e.block = m.source ∧ e.quad = p)) ∧
    ∀ m, s.mig.context = .finishing m → e.block ≠ m.source

/-- From s to u the translation of L has been switched by a commit of m: T is SOFT for L; a spare S is RETIRED, keeping its L
and its fuse slot; every other entry is as before; the suspect entry of S, if there is one, is freed and the full-reported
flag cleared with it (R11, R85, R115). -/
def State.switchedBy (s u : State) (m : Move) : Prop :=
  entryAt u.table m.target = .soft m.req.l false ∧
    (∀ k l pending, m.source = s.limit + k → entryAt s.table k = .soft l pending →
      entryAt u.table k = .retired (some l) none false false) ∧
    (∀ k l slot, m.source = s.limit + k → entryAt s.table k = .hard l slot →
      entryAt u.table k = .retired (some l) (some slot) false false) ∧
    (∀ k, k ≠ m.target → m.source ≠ s.limit + k → entryAt u.table k = entryAt s.table k) ∧
    (m.source ∉ s.watch.blocks → u.watch = s.watch) ∧
    (∀ i e, s.watch.suspects[i]? = some (some e) → e.block = m.source →
      u.watch = { s.watch with suspects := s.watch.suspects.set i none, fullReported := false })

/-- From v, where the request-path write of entry e has just left the outstanding downstream table, to u the migration unit has
taken its removal: in CLAIMED for that quad of S, with no other such write outstanding there, the phase goes to READING; in
FINISHING with S the entry's block, with none outstanding there, the migration commits; otherwise nothing changes (R53,
R77, R84, R85). -/
def State.removalTaken (v u : State) (e : OutEntry) : Prop :=
  (v.waitsForNone e → u = v) ∧
    (∀ m p, v.mig.context = .copying m p (some .claimed) → e.block = m.source → e.quad = p →
      (v.drainsQuad m.source p → u = v) ∧
        (¬v.drainsQuad m.source p → u = { v with mig := { v.mig with context := .copying m p (some (.reading none)) } })) ∧
    ∀ m, v.mig.context = .finishing m → e.block = m.source →
      (v.drainsBlock m.source → u = v) ∧
        (¬v.drainsBlock m.source →
          (v.table.length = 128 → m.target < 128 → m.source ≠ v.limit + m.target → v.watch.blocks.Nodup →
            v.switchedBy u m) ∧
          u.mig = { v.mig with context := .idle, startEvent := true } ∧
          u.recs =
            { v.recs with
              handed := v.recs.handed ++
                [{ producer := .migration, body := .migDone m.req.l m.source m.target, action := none }] } ∧
          { u with table := v.table, watch := v.watch, mig := v.mig, recs := v.recs } = v)

/-- Slot k was applied at load with record r (R149). -/
def appliedAt (images : List SlotImage) (k : Nat) (r : FuseRecord) : Prop :=
  ∃ i : SlotImage, images[k]? = some i ∧ i.applied = some true ∧ fuseRecordOf i.bits = r

/-- A slot goes to the locked quad, and it is a WRITE or the hold buffer already holds a slot (R31). -/
def State.meetsHold (s : State) (l q : Nat) (kind : Access) : Prop :=
  s.mig.context.locks l q = true ∧ (kind = .write ∨ s.req.hold ≠ [])

/-- The slot k, with the hold buffer at `hold`, goes to the locked quad, and it is a WRITE or the hold buffer holds a slot
(R31). -/
def Context.mayHold (c : Context) (r : RequestUnit) (hold : List Nat) (k : Nat) : Prop :=
  ∃ x : Slot, r.slots[k]? = some (some x) ∧ c.locks x.l x.q = true ∧ (x.kind = .write ∨ hold ≠ [])

/-- From v to w the hold test has been made on the head of the relay queue, and on each next head in turn while the last one was
held and found room: the slots `moved`, in their order, leave the front of the relay queue for the tail of the hold buffer
as HELD; each was held and found a free place when it was head; the head left behind is not held or finds the hold buffer
full; the other slots and the credits are as before (R31). -/
def Context.holdTested (c : Context) (v w : RequestUnit) : Prop :=
  ∃ moved : List Nat, v.relay = moved ++ w.relay ∧ w.hold = v.hold ++ moved ∧ w.credits = v.credits ∧
    (∀ k, k ∉ moved → w.slots[k]? = v.slots[k]?) ∧
    (∀ k ∈ moved, ∀ x : Slot, v.slots[k]? = some (some x) →
      w.slots[k]? = some (some { x with state := .held })) ∧
    (∀ a k b, moved = a ++ k :: b → c.mayHold v (v.hold ++ a) k ∧ (v.hold ++ a).length < 4) ∧
    ∀ k b, w.relay = k :: b → ¬c.mayHold v w.hold k ∨ 4 ≤ w.hold.length

/-- The relay queue is stalled: its head is held and finds the hold buffer full (R31, R32). -/
def State.waitsForRoom (s : State) : Prop :=
  ∃ k rest, s.req.relay = k :: rest ∧ s.mig.context.mayHold s.req s.req.hold k ∧ 4 ≤ s.req.hold.length

/-- Spare k may be a migration target: FREE, with no entry of the outstanding downstream table naming it (R9, R10). -/
def State.mayBeTarget (s : State) (k : Nat) : Prop :=
  entryAt s.table k = .free ∧ ∀ x ∈ s.arb.outstanding, x.2.block ≠ s.limit + k

/-- Candidate e at position i is chosen before candidate f at position j: the keys of R103, in order (R103). -/
def chosenBefore (now : Epoch) (i : Nat) (e : Suspect) (j : Nat) (f : Suspect) : Prop :=
  e.ue < f.ue ∨ (e.ue = f.ue ∧ (e.ce < f.ce ∨ (e.ce = f.ce ∧
    ((now - f.last).toNat < (now - e.last).toNat ∨ ((now - f.last).toNat = (now - e.last).toNat ∧ i < j)))))

/-- A counted report for block p goes into position i, where the entry stands as e before any item is counted: the entry that
names p; or a new one at the lowest free position; or, with none free, a new one in the place of the victim (R102,
R103). -/
def State.countsInto (s : State) (p i : Nat) (e : Suspect) : Prop :=
  (s.watch.suspects[i]? = some (some e) ∧ e.block = p) ∨
    (p ∉ s.watch.blocks ∧
      e = { block := p, ce := 0, ue := 0, first := s.clock.epoch, last := s.clock.epoch, ceFired := false,
            ueFired := false, denied := false } ∧
      ((s.watch.suspects[i]? = some none ∧ ∀ j < i, s.watch.suspects[j]? ≠ some none) ∨
        (none ∉ s.watch.suspects ∧
          ∃ v : Suspect, s.watch.suspects[i]? = some (some v) ∧ v.ceFired = false ∧ v.ueFired = false ∧
            ∀ (j : Nat) (f : Suspect), s.watch.suspects[j]? = some (some f) → f.ceFired = false → f.ueFired = false →
              j ≠ i → chosenBefore s.clock.epoch i v j f)))

/-- From w to v a decay expiry has been taken: every CE count is halved; an entry with no fired flag and both counts 0 is then
freed, and the full-reported flag cleared if one is; everything else but the timer is as before (R113). -/
def WatchUnit.decayedTo (w v : WatchUnit) : Prop :=
  v.suspects.length = w.suspects.length ∧
    (∀ i : Nat, w.suspects[i]? = some none → v.suspects[i]? = some none) ∧
    (∀ (i : Nat) (e : Suspect), w.suspects[i]? = some (some e) →
      e.ceFired = false → e.ueFired = false → e.ce / 2 = 0 → e.ue = 0 →
      v.suspects[i]? = some none ∧ v.fullReported = false) ∧
    (∀ (i : Nat) (e : Suspect), w.suspects[i]? = some (some e) →
      (e.ceFired = true ∨ e.ueFired = true ∨ e.ce / 2 ≠ 0 ∨ e.ue ≠ 0) →
      v.suspects[i]? = some (some { e with ce := e.ce / 2 })) ∧
    ((∀ (i : Nat) (e : Suspect), w.suspects[i]? = some (some e) →
        e.ceFired = true ∨ e.ueFired = true ∨ e.ce / 2 ≠ 0 ∨ e.ue ≠ 0) →
      v.fullReported = w.fullReported) ∧
    v.decayDue = false ∧ v.reports = w.reports ∧ v.firings = w.firings

/-- The status report of a READ response: one item for each line of the entry, naming the quad line, with its status when the
response is DATA with a beat for each line and no status out of its code, and FAILED for every line otherwise (R61, R62,
R198). -/
def responseReport (e : OutEntry) (status : BitVec 2) (beats : List ReadBeat) : StatusReport where
  block := e.block
  quad := e.quad
  items :=
    if status = 0#2 ∧ beats.length = e.size.lines ∧ ∀ b ∈ beats, b.side ≠ 3#2 then
      (beats.zipIdx e.firstLine).map fun y =>
        (y.2,
          if y.1.side = 0#2 then .ok
          else if y.1.side = 1#2 then .corrected
          else .uncorrectable)
    else (List.range e.size.lines).map fun i => (e.firstLine + i, .failed)

/-- Between s and u every held slot has returned to the front of the relay queue, in hold buffer order, as QUEUED; the other slots
and the credits are as before (R33, R81). -/
def State.heldReturned (s u : State) : Prop :=
  u.req.relay = s.req.hold ++ s.req.relay ∧ u.req.hold = [] ∧ u.req.credits = s.req.credits ∧
    (∀ k, k ∉ s.req.hold → u.req.slots[k]? = s.req.slots[k]?) ∧
    ∀ (k : Nat) (x : Slot), k ∈ s.req.hold → s.req.slots[k]? = some (some x) →
      u.req.slots[k]? = some (some { x with state := .queued })

/-- The items of a report that count in a class: CORRECTED in CE, UNCORRECTABLE and FAILED in UE (R100). -/
def itemsOf (c : LimitClass) (items : List (Nat × ItemStatus)) : Nat :=
  match c with
  | .ce => items.countP fun x => x.2 == .corrected
  | .ue => items.countP fun x => x.2 == .uncorrectable || x.2 == .failed

/-- A report for block p is counted: p is neither a home block remapped away nor a retired spare (R101). -/
def State.isCounted (s : State) (p : Nat) : Prop :=
  s.classify p ≠ .homeRemapped ∧ ∀ k, s.classify p ≠ .retiredSpare k

/-- Block p is live (R124). -/
def State.liveBlock (s : State) (p : Nat) : Prop :=
  ((∃ l, s.classify p = .homeInUse l) ∨ (∃ k, s.classify p = .freeSpare k) ∨ (∃ k l, s.classify p = .servingSpare k l)) ∧
    (∀ m q lock, s.mig.context = .copying m q lock → m.source ≠ p ∧ s.limit + m.target ≠ p) ∧
    (∀ m, s.mig.context = .finishing m → m.source ≠ p ∧ s.limit + m.target ≠ p)

/-- The 16 bytes of a record by the columns of 11.4: kind code, flag byte below the alert bit, and the bytes 9 to 15. -/
def FaultRecord.row (r : FaultRecord) (code flags : Nat) (operands : List Byte) : List Byte :=
  be2 r.seq.toNat ++ be1 code ++ be1 ((if r.alert then 128 else 0) + flags) ++ be1 r.missed ++ be4 r.epoch.toNat ++
    operands

end Sys2Proof.Machine
end

