-- ==== Sys2Proof/Certificates/Slice0/Obligations.lean ====
section
/-! DEFINITION. The statements for the provers, in the order of the spec's chapters. Each says what a command's next state is,
field by field, from hypotheses on the state and the operands alone, or a law that every step keeps. -/

open Sys2Proof Sys2Proof.Machine

/-! ### The step -/

/-- A step takes the command at the front of the queue and runs it on the queue's rest. On an empty queue one microsecond
passes while PWR_OK is high: the clock and a running gap count go on, nothing else changes (the second clause is the
model's choice, log 5). -/
def Obligations.StepTakesFrontCommand : Prop :=
  (∀ (c : Instr) (rest : List Instr) (s : State), s.pending = c :: rest →
    step s = exec c { s with pending := rest }) ∧
  (∀ s : State, s.pending = [] → s.pwrOk = true →
    step s =
      .next
        { s with
          clock := { s.clock with now := s.clock.now + 1 }, patrol := s.patrol.pass s.params.patrolGap 1 }) ∧
  (∀ s : State, s.pending = [] → s.pwrOk = false → step s = .next s)

/-- Every command on every state answers a next state, and leaves the queue of waiting commands as it was. -/
def Obligations.EveryCommandAnswersNext : Prop :=
  ∀ (c : Instr) (s : State), ∃ t : State, exec c s = .next t ∧ t.pending = s.pending

/-! ### Power and reset (R46, R64, R96, R120, R134, R147, R153, R157, R167, R179, R189) -/

/-- The values the chapters state for the rise of PWR_OK, before LOADING has read anything. The fuse array and the levels of
PRST_N, FWE and MCS_N are the model's choice (logs 2 and 3) and are not stated. -/
def Obligations.ResetHoldsTheRiseValues : Prop :=
  (∀ k < 128, State.reset.table[k]? = some .free) ∧ State.reset.table.length = 128 ∧
  State.reset.req.credits = 0 ∧ State.reset.req.relay = [] ∧ State.reset.req.hold = [] ∧
  State.reset.req.slots = List.replicate 64 none ∧
  State.reset.arb = { credits := 0, outstanding := [], nextTag := 0#8, bgWait := 0, linkUp := false } ∧
  State.reset.mig.waiting = [] ∧ State.reset.mig.context = .idle ∧
  State.reset.watch.suspects = List.replicate 32 none ∧ State.reset.watch.fullReported = false ∧
  State.reset.watch.decayCount = 0 ∧ State.reset.clock.epoch = 0#32 ∧
  State.reset.patrol = { state := .off, block := 0, quad := 0 } ∧
  State.reset.recs.queue = [] ∧ State.reset.recs.nextSeq = 0#16 ∧ State.reset.recs.missed = 0 ∧
  State.reset.recs.alertMissed = false ∧ State.reset.recs.alertLow = false ∧
  State.reset.fuse =
    { part := .loading, capacity := none, images := List.replicate 32 none, appendPtr := none, programmer := .idle } ∧
  State.reset.port.result = { command := 0#8, result := .none, payload := [] } ∧ State.reset.port.mso = .highZ ∧
  State.reset.params =
    { ceLimit := 24, ueLimit := 1, ceAction := .alert, ueAction := .retire, rearmMode := .manual, decayPeriod := 600,
      patrolGap := 200, bgShare := 16, respTimeout := 2000, retryLimit := 2, alertKinds := 0x73E0#16 }

/-- POWER_LOSS: the supply is low, the fuse array holds what it held, and every other unit has lost its state; while the supply
is low no command but POWER_ON changes anything. POWER_ON: the units take their power-on values, whatever the state
before; the straps select the capacity; PRST_N and FWE have the levels found, no frame is open, and MSO is at high
impedance; the fuse array is as it was (R1, R147, R153, R167, R173, R196). What stands in the units while the supply is
low is the model's choice (log 7), and so is the drive of MSO at a rise that finds MCS_N low (log 19). -/
def Obligations.PowerCycles : Prop :=
  (∀ s : State, s.pwrOk = true →
    ∃ t : State, exec .powerLoss s = .next t ∧ t.pwrOk = false ∧ t.fuseArray = s.fuseArray ∧
      t.table = List.replicate 128 .free ∧ t.req.slots = List.replicate 64 none ∧ t.arb.outstanding = [] ∧
      t.mig.waiting = [] ∧ t.mig.context = .idle ∧ t.recs.queue = [] ∧ t.recs.alertLow = false ∧
      t.fuse.programmer = .idle ∧ t.port.params = Params.defaults ∧ t.port.mso = .highZ) ∧
  (∀ (c : Instr) (s : State), s.pwrOk = false → (∀ straps p m, c ≠ .powerOn straps p m) → exec c s = .next s) ∧
  (∀ (cap : BitVec 2) (prst fwe mcs : Bool) (s : State),
    ∃ t : State, exec (.powerOn { cap := cap, fweHigh := fwe } prst mcs) s = .next t ∧ t.pwrOk = true ∧
      t.prstN = prst ∧ t.fwe = fwe ∧
      t.fuseArray = s.fuseArray ∧ t.clock.epoch = 0#32 ∧ t.capacityBlocks = 131072 * 2 ^ cap.toNat ∧
      t.limit = 131072 * 2 ^ cap.toNat - 128 ∧ t.fuse.part = .loading ∧ t.fuse.programmer = .idle ∧
      t.req = State.reset.req ∧ t.arb = State.reset.arb ∧ t.mig = State.reset.mig ∧ t.watch = State.reset.watch ∧
      t.patrol = State.reset.patrol ∧ t.port.result = State.reset.port.result ∧ t.port.params = Params.defaults ∧
      t.port.mcs = (if mcs then .high else .lowNoFrame) ∧ t.port.mso = .highZ ∧ t.port.sent = none ∧
      t.recs.queue = [] ∧ t.recs.nextSeq = 0#16 ∧ t.recs.missed = 0 ∧ t.recs.alertMissed = false ∧
      t.recs.alertLow = false ∧ t.upSent = [] ∧ t.downSent = [])

/-- LOADING, within POWER_ON: the append pointer is one more than the highest slot that is not BLANK; each slot image has the
array's bits; a BLANK slot below the pointer is SPOILED with TORN, one at or above it is BLANK; a VALID slot is SPOILED with
RANGE exactly when its MAP names a block beyond the limit, with CONFLICT exactly when its MAP, in range, names a spare that
an earlier applied slot names, or its BAN a spare that an earlier applied BAN names, and is applied otherwise. An entry is
FREE exactly when no applied slot names it; HARD for L from slot k exactly when slot k was applied as MAP(L, s) and no later
applied slot names L in a MAP or s in a BAN; RETIRED with that L and slot, not banned, exactly when a later MAP for L was
applied and no BAN names s; and banned exactly when an applied BAN names it, then with the BAN's slot and the L of the MAP
applied to it, if one was. The FUSE_SPOILED records are those of the SPOILED slots, in slot order (R18, R151, R152, R154,
R155, R156). -/
def Obligations.LoadingAppliesFuseRecords : Prop :=
  ∀ (cap : BitVec 2) (prst fwe mcs : Bool) (s : State), s.fuseArray.length = 32 →
    ∃ (t : State) (images : List SlotImage) (ptr : Nat),
      exec (.powerOn { cap := cap, fweHigh := fwe } prst mcs) s = .next t ∧
      t.fuse.images = images.map some ∧ t.fuse.appendPtr = some ptr ∧
      images.map SlotImage.bits = s.fuseArray ∧
      (∀ k w, s.fuseArray[k]? = some w → ptr ≤ k → classifySlot w = .blank) ∧
      (∀ w, s.fuseArray[ptr - 1]? = some w → 0 < ptr → classifySlot w ≠ .blank) ∧
      (∀ (k : Nat) (i : SlotImage), images[k]? = some i → k < ptr → classifySlot i.bits = .blank →
        i.kind = .spoiled (.load .torn)) ∧
      (∀ (k : Nat) (i : SlotImage) (c : SpoilCause), images[k]? = some i → classifySlot i.bits = .spoiled c →
        i.kind = .spoiled c) ∧
      (∀ (k : Nat) (i : SlotImage), images[k]? = some i → classifySlot i.bits = .valid →
        (i.kind = .valid ∧ i.applied = some true) ∨
          (i.applied = some false ∧ (i.kind = .spoiled (.load .range) ∨ i.kind = .spoiled (.load .conflict)))) ∧
      (∀ (k : Nat) (i : SlotImage), images[k]? = some i →
        (i.kind = .spoiled (.load .range) ↔
          classifySlot i.bits = .valid ∧ ∃ l sp : Nat, fuseRecordOf i.bits = .map l sp ∧ t.limit ≤ l)) ∧
      (∀ (k : Nat) (i : SlotImage) (l sp : Nat), images[k]? = some i → classifySlot i.bits = .valid →
        fuseRecordOf i.bits = .map l sp → l < t.limit →
        (i.kind = .spoiled (.load .conflict) ↔ ∃ k' < k, ∃ r, appliedAt images k' r ∧ r.spare = sp)) ∧
      (∀ (k : Nat) (i : SlotImage) (sp : Nat), images[k]? = some i → classifySlot i.bits = .valid →
        fuseRecordOf i.bits = .ban sp →
        (i.kind = .spoiled (.load .conflict) ↔ ∃ k' < k, appliedAt images k' (.ban sp))) ∧
      (∀ (k : Nat) (i : SlotImage), images[k]? = some i → classifySlot i.bits ≠ .valid → i.applied = none) ∧
      (∀ (k : Nat) (i : SlotImage), images[k]? = some i → ptr ≤ k → i.kind = .blank ∧ i.bits = 0#40) ∧
      (∀ sp < 128, entryAt t.table sp = .free ↔ ∀ k r, appliedAt images k r → r.spare ≠ sp) ∧
      (∀ sp < 128, ∀ l k : Nat, entryAt t.table sp = .retired (some l) (some k) false false ↔
        appliedAt images k (.map l sp) ∧ (∃ k' sp', k < k' ∧ appliedAt images k' (.map l sp')) ∧
          ∀ k', ¬appliedAt images k' (.ban sp)) ∧
      (∀ sp < 128, ∀ k : Nat, appliedAt images k (.ban sp) →
        (∀ l k', appliedAt images k' (.map l sp) →
          entryAt t.table sp = .retired (some l) (some k) true false) ∧
        ((∀ l k', ¬appliedAt images k' (.map l sp)) → entryAt t.table sp = .retired none (some k) true false)) ∧
      (∀ sp < 128, ∀ l k : Nat, entryAt t.table sp = .hard l k ↔
        ∃ i : SlotImage, images[k]? = some i ∧ i.applied = some true ∧ fuseRecordOf i.bits = .map l sp ∧
          ∀ (k' : Nat) (i' : SlotImage), k < k' → images[k']? = some i' → i'.applied = some true →
            (∀ sp', fuseRecordOf i'.bits ≠ .map l sp') ∧ fuseRecordOf i'.bits ≠ .ban sp) ∧
      (∀ sp < 128, (entryAt t.table sp).banned = true ↔
        ∃ (k : Nat) (i : SlotImage), images[k]? = some i ∧ i.applied = some true ∧ fuseRecordOf i.bits = .ban sp) ∧
      t.recs.handed.map Handed.body =
        ((images.zipIdx).filterMap fun x => x.1.loadCause?.map fun c => RecordBody.fuseSpoiled x.2 c)

/-- READY and the rise of PRST_N: with the part READY and PRST_N high, 64 upstream credits are granted as one grant, the
downstream link is released, and patrol goes to GAP with the gap count at 0 if PATROL_GAP is not 0; a start event is taken at
READY and at a rise with the part READY (R46, R49, R64, R71, R122, R157). That READY is not taken before the record unit has
taken every FUSE_SPOILED record of LOADING is what the model reads into R147 and R154 (log 8). -/
def Obligations.ReadyAndRiseReleaseLinks : Prop :=
  (∀ s : State, s.pwrOk = true → s.fuse.part = .loading → s.fuse.capacity ≠ none → s.fuse.appendPtr ≠ none →
    (∀ h ∈ s.recs.handed, h.producer ≠ .fuse) → s.prstN = false →
    exec .ready s =
      .next { s with fuse := { s.fuse with part := .ready }, mig := { s.mig with startEvent := true } }) ∧
  (∀ s : State, s.pwrOk = true → s.fuse.part = .loading → s.fuse.capacity ≠ none → s.fuse.appendPtr ≠ none →
    (∀ h ∈ s.recs.handed, h.producer ≠ .fuse) → s.prstN = true →
    exec .ready s =
      .next
        { s with
          fuse := { s.fuse with part := .ready }
          mig := { s.mig with startEvent := true }
          req := { s.req with credits := 64 }
          arb := { s.arb with linkUp := true }
          patrol := { s.patrol with state := if s.params.patrolGap = 0 then s.patrol.state else .gap 0 }
          upSent := s.upSent ++ [.credit 64#8] }) ∧
  (∀ s : State, s.pwrOk = true → s.fuse.part = .ready → s.prstN = false →
    exec .prstNRise s =
      .next
        { s with
          prstN := true
          mig := { s.mig with startEvent := true }
          req := { s.req with credits := 64 }
          arb := { s.arb with linkUp := true }
          patrol := { s.patrol with state := if s.params.patrolGap = 0 then s.patrol.state else .gap 0 }
          upSent := s.upSent ++ [.credit 64#8] }) ∧
  (∀ s : State, s.pwrOk = true → s.fuse.part = .loading → s.prstN = false →
    exec .prstNRise s = .next { s with prstN := true }) ∧
  (∀ s : State, (∃ h ∈ s.recs.handed, h.producer = .fuse) → exec .ready s = .next s)

/-- The falling edge of PRST_N: the request unit and the outstanding downstream table are emptied without a response, credits
and background wait count go to 0, the link is held in reset, patrol is OFF with its cursor kept, the next-tag pointer is
kept; a migration in COPYING is stopped with its target released and its request back at the head; one in FINISHING
commits, whatever was outstanding: T is SOFT, a spare S is RETIRED, the suspect entry of S is freed and MIG_DONE is handed
(R47, R63, R85, R93, R94, R115, R133). -/
def Obligations.PrstFallEmptiesPaths : Prop :=
  (∀ s : State, s.pwrOk = true → s.prstN = true →
    ∃ t : State, exec .prstNFall s = .next t ∧ t.prstN = false ∧
      t.req = { credits := 0, slots := List.replicate s.req.slots.length none, relay := [], hold := [] } ∧
      t.arb = { credits := 0, outstanding := [], nextTag := s.arb.nextTag, bgWait := 0, linkUp := false } ∧
      t.patrol = { s.patrol with state := .off } ∧ t.mig.context = .idle ∧ t.upSent = s.upSent ∧
      t.downSent = s.downSent ∧ t.fuse = s.fuse ∧ t.port = s.port ∧ t.clock = s.clock ∧ t.fwe = s.fwe ∧
      t.fuseArray = s.fuseArray ∧ t.recs.queue = s.recs.queue) ∧
  (∀ s : State, s.pwrOk = true → s.prstN = true → s.mig.context = .idle →
    ∃ t : State, exec .prstNFall s = .next t ∧ t.mig = s.mig ∧ t.table = s.table ∧ t.watch = s.watch ∧
      t.recs = s.recs) ∧
  (∀ (s : State) (m : Move) (p : Nat) (lock : Option Lock), s.pwrOk = true → s.prstN = true →
    s.mig.context = .copying m p lock →
    ∃ t : State, exec .prstNFall s = .next t ∧
      t.mig = { s.mig with context := .idle, waiting := m.req :: s.mig.waiting, startEvent := true } ∧
      t.table = s.table.set m.target .free ∧ t.watch = s.watch ∧
      t.recs =
        { s.recs with
          handed := s.recs.handed ++
            [{ producer := .migration, body := .migAborted m.req.l .portReset, action := none }] }) ∧
  (∀ (s : State) (m : Move), s.pwrOk = true → s.prstN = true → s.mig.context = .finishing m → s.table.length = 128 →
    m.target < 128 → m.source ≠ s.limit + m.target → s.watch.blocks.Nodup →
    ∃ t : State, exec .prstNFall s = .next t ∧ s.switchedBy t m ∧
      t.mig = { s.mig with context := .idle, startEvent := true } ∧
      t.recs =
        { s.recs with
          handed := s.recs.handed ++
            [{ producer := .migration, body := .migDone m.req.l m.source m.target, action := none }] }) ∧
  (∀ s : State, s.prstN = false → exec .prstNFall s = .next s)

/-- FWE_CHANGE sets the level of FWE alone. EPOCH_TICK: the epoch rises by one and wraps; the decay timer count rises by one, and
on reaching the decay period returns to 0 with a decay expiry due; an expiry still due is taken before the tick counts; while
DECAY_PERIOD is 0 the count is held at 0; the programming timer rises while a programming runs, and PROGRAMMING ends at the
tick that brings it to 190 ms; no table, queue or link is touched (R97, R98, R149, R159, R163). That the expiry due waits
for the other events of its millisecond is the model's (R114, log 21). -/
def Obligations.FweAndTickAdvance : Prop :=
  (∀ (high : Bool) (s : State), s.pwrOk = true → exec (.fweChange high) s = .next { s with fwe := high }) ∧
  (∀ s : State, s.pwrOk = true →
    ∃ t : State, exec .epochTick s = .next t ∧ t.clock.epoch = s.clock.epoch + 1#32 ∧
      (s.params.decayPeriod = 0 → t.watch = { s.watch with decayCount := 0, decayDue := false }) ∧
      (s.watch.decayDue = false → s.watch.decayCount + 1 < s.params.decayPeriod * 100 →
        t.watch = { s.watch with decayCount := s.watch.decayCount + 1 }) ∧
      (s.watch.decayDue = false → s.watch.decayCount + 1 = s.params.decayPeriod * 100 →
        t.watch = { s.watch with decayCount := 0, decayDue := true }) ∧
      (s.fuse.programmer = .idle → t.fuse = s.fuse) ∧
      (∀ slot record timer reported, s.fuse.programmer = .programming slot record timer reported →
        (timer + 1 < 190 →
          t.fuse = { s.fuse with programmer := .programming slot record (timer + 1) reported }) ∧
        (190 ≤ timer + 1 → t.fuse = { s.fuse with programmer := .verifying slot record (min 200 (timer + 1)) })) ∧
      (∀ slot record timer, s.fuse.programmer = .verifying slot record timer →
        t.fuse = { s.fuse with programmer := .verifying slot record (min 200 (timer + 1)) }) ∧
      t.patrol.block = s.patrol.block ∧ t.patrol.quad = s.patrol.quad ∧
      t.patrol.state.number = s.patrol.state.number ∧
      { t with clock := s.clock, watch := s.watch, fuse := s.fuse, patrol := s.patrol } = s) ∧
  (∀ s u : State, s.pwrOk = true → s.params.decayPeriod ≠ 0 → s.watch.decayDue = true →
    exec .decayExpiry s = .next u → exec .epochTick s = exec .epochTick u)

/-! ### Arrivals (R24, R25, R27, R28, R31, R197) -/

/-- Messages of the other types, up and down, change nothing (R197, R198). A credit grant adds its count to the downstream
credits, up to 128 (R51). -/
def Obligations.MessagesDiscardedOrCounted : Prop :=
  (∀ (type : BitVec 4) (s : State), exec (.upstreamOtherMessage type) s = .next s) ∧
  (∀ (type : BitVec 4) (s : State), exec (.downstreamOtherMessage type) s = .next s) ∧
  (∀ (count : Byte) (s : State), s.pwrOk = true → s.arb.linkUp = true →
    exec (.downstreamCreditGrant count) s =
      .next { s with arb := { s.arb with credits := min 128 (s.arb.credits + count.toNat) } })

/-- A rejected arrival: without a credit OVERRUN and nothing granted back; with one, the first check that fails gives the
reason and the credit is granted back; no slot is taken and nothing else changes (R27, R197). That the response is sent
before the credit grant of the same event is the model's choice (log 18). -/
def Obligations.ArrivalRejectedByFirstCheck : Prop :=
  ∀ (kind : Access) (tag : Tag) (code : BitVec 2) (addr : Addr) (beats : List WriteLine) (s : State), s.pwrOk = true →
    (s.req.credits = 0 →
      exec (.upstreamRequest kind tag code addr beats) s =
        .next { s with upSent := s.upSent ++ [.response tag (.rejected .overrun) code []] }) ∧
    (s.req.credits ≠ 0 → (∃ x : Slot, some x ∈ s.req.slots ∧ x.answered = false ∧ x.tag = tag) →
      exec (.upstreamRequest kind tag code addr beats) s =
        .next
          { s with upSent := s.upSent ++ [.response tag (.rejected .tagInUse) code [], .credit 1#8] }) ∧
    (s.req.credits ≠ 0 → (∀ x : Slot, some x ∈ s.req.slots → x.answered = false → x.tag ≠ tag) →
      (code = 3#2 ∨ addr.toNat % (64 * 2 ^ code.toNat) ≠ 0 ∨ (kind = .write ∧ beats.length ≠ 2 ^ code.toNat)) →
      exec (.upstreamRequest kind tag code addr beats) s =
        .next { s with upSent := s.upSent ++ [.response tag (.rejected .align) code [], .credit 1#8] }) ∧
    (s.req.credits ≠ 0 → (∀ x : Slot, some x ∈ s.req.slots → x.answered = false → x.tag ≠ tag) →
      code ≠ 3#2 → addr.toNat % (64 * 2 ^ code.toNat) = 0 → (kind = .write → beats.length = 2 ^ code.toNat) →
      s.limit ≤ addr.toNat / 16384 →
      exec (.upstreamRequest kind tag code addr beats) s =
        .next { s with upSent := s.upSent ++ [.response tag (.rejected .range) code [], .credit 1#8] })

/-- An accepted arrival: its credit becomes a QUEUED slot at the tail of the relay queue, with its deadline; a slot that becomes
head and meets the hold test goes to a free place of the hold buffer as HELD; nothing else changes (R25, R28, R31). The
slot taken is the lowest-numbered free one, the model's choice (log 17). -/
def Obligations.ArrivalAccepted : Prop :=
  ∀ (kind : Access) (tag : Tag) (size : Size) (addr : Addr) (beats : List WriteLine) (k : Nat) (s : State),
    s.pwrOk = true → s.req.credits ≠ 0 →
    (∀ x : Slot, some x ∈ s.req.slots → x.answered = false → x.tag ≠ tag) →
    addr.toNat % (64 * size.lines) = 0 → (kind = .write → beats.length = size.lines) →
    addr.toNat / 16384 < s.limit → s.req.slots[k]? = some none → (∀ j < k, s.req.slots[j]? ≠ some none) →
    ∀ x : Slot,
      x = { state := .queued, tag := tag, kind := kind, addr := addr, size := size,
            payload := if kind = .write then some beats else none,
            deadline := s.clock.now + s.params.respTimeout, answered := false, first := none, second := none,
            merged := none } →
    (¬(s.req.relay = [] ∧ s.meetsHold (addr.toNat / 16384) (addr.toNat % 16384 / 256) kind ∧ s.req.hold.length < 4) →
      exec (.upstreamRequest kind tag size.code addr beats) s =
        .next
          { s with
            req :=
              { credits := s.req.credits - 1, slots := s.req.slots.set k (some x), relay := s.req.relay ++ [k],
                hold := s.req.hold } }) ∧
    (s.req.relay = [] → s.meetsHold (addr.toNat / 16384) (addr.toNat % 16384 / 256) kind → s.req.hold.length < 4 →
      exec (.upstreamRequest kind tag size.code addr beats) s =
        .next
          { s with
            req :=
              { credits := s.req.credits - 1, slots := s.req.slots.set k (some { x with state := .held }), relay := [],
                hold := s.req.hold ++ [k] } })

/-! ### Steering, translation and classes (R6, R8, R74, R75) -/

/-- The context's answer for its L by kind, quad, P and lock, and "not under migration" for every other block and in IDLE (R74,
R75). -/
def Obligations.SteeringByQuadAndLock : Prop :=
  (∀ (m : Move) (p q : Nat) (lock : Option Lock), q < p →
    (Context.copying m p lock).steer m.req.l q .read = .target m.target ∧
      (Context.copying m p lock).steer m.req.l q .write = .dual m.source m.target) ∧
  (∀ (m : Move) (p : Nat) (lock : Lock),
    (Context.copying m p (some lock)).steer m.req.l p .read = .source m.source ∧
      (Context.copying m p (some lock)).steer m.req.l p .write = .held m.source) ∧
  (∀ (m : Move) (p q : Nat) (lock : Option Lock) (kind : Access), p < q ∨ (q = p ∧ lock = none) →
    (Context.copying m p lock).steer m.req.l q kind = .source m.source) ∧
  (∀ (m : Move) (q : Nat) (kind : Access), (Context.finishing m).steer m.req.l q kind = .target m.target) ∧
  (∀ (c : Context) (l q : Nat) (kind : Access), c.l? ≠ some l → c.steer l q kind = .notUnderMigration)

/-- A logical block is translated to its SOFT spare, else to its HARD spare, else to its home block; RESERVED, FREE and RETIRED
entries take no part (R6). At most one entry in SOFT or HARD names a block, as R5 has it. -/
def Obligations.TranslationOrder : Prop :=
  ∀ (s : State) (l : Nat), (s.table.filterMap Entry.serves?).Nodup →
    (∀ k < s.table.length, ∀ pending, entryAt s.table k = .soft l pending → s.translate l = s.limit + k) ∧
    ((∀ pending, Entry.soft l pending ∉ s.table) →
      ∀ k < s.table.length, ∀ slot, entryAt s.table k = .hard l slot → s.translate l = s.limit + k) ∧
    ((∀ e ∈ s.table, e.serves? ≠ some l) → s.translate l = l)

/-- The class of a physical block, and the logical block it serves (R8). -/
def Obligations.PhysicalBlockClasses : Prop :=
  ∀ (s : State) (p : Nat),
    (p < s.limit → (∀ e ∈ s.table, e.serves? ≠ some p) → s.classify p = .homeInUse p) ∧
    (p < s.limit → (∃ e ∈ s.table, e.serves? = some p) → s.classify p = .homeRemapped) ∧
    (∀ k, p = s.limit + k → entryAt s.table k = .free → s.classify p = .freeSpare k) ∧
    (∀ k l, p = s.limit + k → entryAt s.table k = .reserved l → s.classify p = .migrationTarget k) ∧
    (∀ k l, p = s.limit + k → (entryAt s.table k).serves? = some l → s.classify p = .servingSpare k l) ∧
    (∀ k l slot banned pending, p = s.limit + k → entryAt s.table k = .retired l slot banned pending →
      s.classify p = .retiredSpare k) ∧
    (BlockClass.served? (.homeInUse p) = some p ∧ BlockClass.served? .homeRemapped = none ∧
      ∀ k l : Nat, BlockClass.served? (.freeSpare k) = none ∧ BlockClass.served? (.migrationTarget k) = none ∧
        BlockClass.served? (.servingSpare k l) = some l ∧ BlockClass.served? (.retiredSpare k) = none)

/-! ### Grants (R34 to R36, R50 to R52, R54 to R57, R78, R80, R126) -/

/-- ISSUE_GRANT with the relay winning and a head that is not held and not to be written twice: one request goes to the
physical block the context or the table gives; it takes one credit and the first free tag from the pointer on; the slot
becomes ACTIVE with its first half OUTSTANDING and leaves the relay queue, the next slot becomes head and the hold test is
made on it; the background wait count rises if a COPY or PATROL offer stands and is 0 otherwise. The other slots, the rest
of the relay queue and the hold buffer are as that test leaves them; beside the request unit, the arbiter and the channel
nothing changes (R31, R34, R35, R50, R52, R55). -/
def Obligations.RelayIssuesOneRequest : Prop :=
  ∀ (k : Nat) (rest : List Nat) (x : Slot) (p : Nat) (t : Tag) (s : State), s.pwrOk = true → s.arb.linkUp = true →
    s.req.relay = k :: rest → k ∉ rest → s.req.slots[k]? = some (some x) → ¬s.meetsHold x.l x.q x.kind →
    (s.arb.bgWait < s.params.bgShare ∨ s.backgroundOffers = false) → 1 ≤ s.arb.credits →
    s.arb.outstanding.length < 256 → FirstFreeTag (s.arb.outstanding.map Prod.fst) s.arb.nextTag t →
    ((s.mig.context.steer x.l x.q x.kind = .notUnderMigration ∧ p = s.translate x.l) ∨
      s.mig.context.steer x.l x.q x.kind = .source p ∨
      ∃ sp, s.mig.context.steer x.l x.q x.kind = .target sp ∧ p = s.limit + sp) →
    ∃ u : State, exec .issueGrant s = .next u ∧
      u.arb =
        { credits := s.arb.credits - 1
          outstanding :=
            s.arb.outstanding ++
              [(t, { owner := .request k, block := p, quad := x.q, firstLine := x.addr.toNat % 256 / 64,
                     size := x.size, dir := x.kind })]
          nextTag := t + 1#8
          bgWait := if s.backgroundOffers then min 64 (s.arb.bgWait + 1) else 0
          linkUp := true } ∧
      (x.kind = .read →
        u.downSent = s.downSent ++
          [.read t x.size.code (BitVec.ofNat 34 (p * 16384 + (x.q * 256 + 64 * (x.addr.toNat % 256 / 64))))]) ∧
      (∀ lines, x.kind = .write → x.payload = some lines →
        u.downSent = s.downSent ++
          [.write t x.size.code (BitVec.ofNat 34 (p * 16384 + (x.q * 256 + 64 * (x.addr.toNat % 256 / 64))))
            lines]) ∧
      s.mig.context.holdTested
        { s.req with
          slots := s.req.slots.set k
            (some { x with
              state := .active, first := some { block := p, tag := t, answer := none }, second := none })
          relay := rest }
        u.req ∧
      { u with req := s.req, arb := s.arb, downSent := s.downSent } = s

/-- ISSUE_GRANT of a write to a copied quad of the block under migration: two writes in a row, first to S, then to T, with the
same offset, size and payload; two credits and the next two free tags; both halves OUTSTANDING; the slot leaves the relay
queue, the next slot becomes head and the hold test is made on it (R31, R36, R50, R52). -/
def Obligations.DualWriteIssuesTwoRequests : Prop :=
  ∀ (k : Nat) (rest : List Nat) (x : Slot) (lines : List WriteLine) (m : Move) (p : Nat) (lock : Option Lock)
    (t1 t2 : Tag) (s : State), s.pwrOk = true → s.arb.linkUp = true →
    s.req.relay = k :: rest → k ∉ rest → s.req.slots[k]? = some (some x) → x.kind = .write → x.payload = some lines →
    s.mig.context = .copying m p lock → x.l = m.req.l → x.q < p →
    (s.arb.bgWait < s.params.bgShare ∨ s.backgroundOffers = false) → 2 ≤ s.arb.credits →
    s.arb.outstanding.length + 2 ≤ 256 → FirstFreeTag (s.arb.outstanding.map Prod.fst) s.arb.nextTag t1 →
    FirstFreeTag (s.arb.outstanding.map Prod.fst ++ [t1]) (t1 + 1#8) t2 →
    ∃ u : State, exec .issueGrant s = .next u ∧
      u.arb =
        { credits := s.arb.credits - 2
          outstanding :=
            s.arb.outstanding ++
              [(t1, { owner := .request k, block := m.source, quad := x.q, firstLine := x.addr.toNat % 256 / 64,
                      size := x.size, dir := .write }),
               (t2, { owner := .request k, block := s.limit + m.target, quad := x.q,
                      firstLine := x.addr.toNat % 256 / 64, size := x.size, dir := .write })]
          nextTag := t2 + 1#8
          bgWait := if s.backgroundOffers then min 64 (s.arb.bgWait + 1) else 0
          linkUp := true } ∧
      u.downSent = s.downSent ++
        [.write t1 x.size.code
          (BitVec.ofNat 34 (m.source * 16384 + (x.q * 256 + 64 * (x.addr.toNat % 256 / 64)))) lines,
         .write t2 x.size.code
          (BitVec.ofNat 34 ((s.limit + m.target) * 16384 + (x.q * 256 + 64 * (x.addr.toNat % 256 / 64)))) lines] ∧
      s.mig.context.holdTested
        { s.req with
          slots := s.req.slots.set k
            (some { x with
              state := .active, first := some { block := m.source, tag := t1, answer := none },
              second := some { block := s.limit + m.target, tag := t2, answer := none } })
          relay := rest }
        u.req ∧
      { u with req := s.req, arb := s.arb, downSent := s.downSent } = s

/-- ISSUE_GRANT with a background offer winning: at the background share, with an empty relay queue, with a relay head that
would be a dual write and finds one credit or one tag only, or with a relay queue stalled behind a full hold buffer: COPY
before PATROL; a four-line read of quad P of S, a four-line write of quad P of T, or a four-line read of the patrol unit's
quad; the unit takes the tag and a deadline of now plus RESP_TIMEOUT; the background wait count returns to 0 (R50, R54, R55,
R56, R78, R80, R126). -/
def Obligations.BackgroundGrants : Prop :=
  ∀ (t : Tag) (s : State), s.pwrOk = true → s.arb.linkUp = true → 1 ≤ s.arb.credits →
    s.arb.outstanding.length < 256 → FirstFreeTag (s.arb.outstanding.map Prod.fst) s.arb.nextTag t →
    (s.params.bgShare ≤ s.arb.bgWait ∨ s.req.relay = [] ∨
      (∃ k rest x b sp, s.req.relay = k :: rest ∧ s.req.slots[k]? = some (some x) ∧
        s.mig.context.steer x.l x.q x.kind = .dual b sp ∧
        (s.arb.credits < 2 ∨ 256 < s.arb.outstanding.length + 2)) ∨
      ∃ k rest x, s.req.relay = k :: rest ∧ s.req.slots[k]? = some (some x) ∧ s.meetsHold x.l x.q x.kind ∧
        4 ≤ s.req.hold.length) →
    (∀ m p, s.mig.context = .copying m p (some (.reading none)) →
      exec .issueGrant s =
        .next
          { s with
            arb :=
              { credits := s.arb.credits - 1
                outstanding :=
                  s.arb.outstanding ++
                    [(t, { owner := .copy, block := m.source, quad := p, firstLine := 0, size := .four, dir := .read })]
                nextTag := t + 1#8, bgWait := 0, linkUp := true }
            mig :=
              { s.mig with
                context :=
                  .copying m p (some (.reading (some { tag := t, deadline := s.clock.now + s.params.respTimeout }))) }
            downSent := s.downSent ++ [.read t 2#2 (BitVec.ofNat 34 (m.source * 16384 + p * 256))] }) ∧
    (∀ m p lines, s.mig.context = .copying m p (some (.writing lines none)) →
      exec .issueGrant s =
        .next
          { s with
            arb :=
              { credits := s.arb.credits - 1
                outstanding :=
                  s.arb.outstanding ++
                    [(t, { owner := .copy, block := s.limit + m.target, quad := p, firstLine := 0, size := .four,
                           dir := .write })]
                nextTag := t + 1#8, bgWait := 0, linkUp := true }
            mig :=
              { s.mig with
                context :=
                  .copying m p
                    (some (.writing lines (some { tag := t, deadline := s.clock.now + s.params.respTimeout }))) }
            downSent :=
              s.downSent ++ [.write t 2#2 (BitVec.ofNat 34 ((s.limit + m.target) * 16384 + p * 256)) lines] }) ∧
    (∀ b q, s.mig.context.offersCopy = false → s.patrol.state = .offered b q →
      exec .issueGrant s =
        .next
          { s with
            arb :=
              { credits := s.arb.credits - 1
                outstanding :=
                  s.arb.outstanding ++
                    [(t, { owner := .patrol, block := b, quad := q, firstLine := 0, size := .four, dir := .read })]
                nextTag := t + 1#8, bgWait := 0, linkUp := true }
            patrol := { s.patrol with state := .reading b q t (s.clock.now + s.params.respTimeout) }
            downSent := s.downSent ++ [.read t 2#2 (BitVec.ofNat 34 (b * 16384 + q * 256))] })

/-- No grant is taken without a downstream credit, or with the link in reset. A relay grant that finds its head held takes no
credit and no tag and leaves the background wait count; the head goes to the hold buffer, and the arbiter chooses again
among the offers then standing, as it would have with the head in the hold buffer before: the next relay head, a background
offer, or none (R51, R54, R57). -/
def Obligations.NoGrantTaken : Prop :=
  (∀ s : State, s.arb.credits = 0 → exec .issueGrant s = .next s) ∧
  (∀ s : State, s.arb.linkUp = false → exec .issueGrant s = .next s) ∧
  (∀ (k : Nat) (x : Slot) (s : State), s.pwrOk = true → s.arb.linkUp = true → s.req.relay = [k] →
    s.req.slots[k]? = some (some x) → s.meetsHold x.l x.q x.kind → s.req.hold.length < 4 → 1 ≤ s.arb.credits →
    s.arb.outstanding.length < 256 → s.backgroundOffers = false →
    exec .issueGrant s =
      .next
        { s with
          req :=
            { s.req with
              slots := s.req.slots.set k (some { x with state := .held }), relay := [],
              hold := s.req.hold ++ [k] } }) ∧
  (∀ (k : Nat) (rest : List Nat) (x : Slot) (s : State), s.pwrOk = true → s.arb.linkUp = true →
    s.req.relay = k :: rest → s.req.slots[k]? = some (some x) → s.meetsHold x.l x.q x.kind → s.req.hold.length < 4 →
    1 ≤ s.arb.credits → s.arb.outstanding.length < 256 →
    (s.arb.bgWait < s.params.bgShare ∨ s.backgroundOffers = false) →
    exec .issueGrant s =
      exec .issueGrant
        { s with
          req :=
            { s.req with
              slots := s.req.slots.set k (some { x with state := .held }), relay := rest,
              hold := s.req.hold ++ [k] } })

/-! ### Responses (R37 to R39, R45, R60 to R62, R198) -/

/-- A READ answered with data in its form is answered DONE upstream with the data and line statuses as received; any other
response to it is taken as FAILED and answered FAILED with no data; the entry leaves the table, the statuses go to the error
watch unit, the slot is freed and its credit granted back. A WRITE of one half is answered DONE or FAILED and gives no status
report, and the migration unit takes its removal. A response under a free tag changes nothing. Whoever owns the entry, the
status report of a READ may be taken before the owner's handling (`reportFirst`): the outcome is that of the report taken
first and the response with its report left out then; for a WRITE the two orders are one (R37, R38, R53, R60, R61, R62, R198).
That the response is sent before the credit grant of the same event is the model's choice (log 18). -/
def Obligations.ReadAnsweredUpstream : Prop :=
  (∀ (tag : Tag) (status : BitVec 2) (beats : List ReadBeat) (first : Bool) (s : State),
    tag ∉ s.arb.outstanding.map Prod.fst → exec (.downstreamResponse tag status beats first) s = .next s) ∧
  (∀ (tag : Tag) (status : BitVec 2) (beats : List ReadBeat) (e : OutEntry) (k : Nat) (x : Slot) (h : Half) (s : State),
    s.pwrOk = true → s.arb.linkUp = true → (s.arb.outstanding.map Prod.fst).Nodup → (tag, e) ∈ s.arb.outstanding →
    e.owner = .request k → e.dir = .read → s.req.slots[k]? = some (some x) → x.state = .active → x.kind = .read →
    x.first = some h → h.answer = none → h.tag = tag → x.second = none → x.merged = none →
    (status = 0#2 → beats.length = e.size.lines → (∀ b ∈ beats, b.side ≠ 3#2) →
      exec (.downstreamResponse tag status beats false) s =
        .next
          { s with
            arb := { s.arb with outstanding := s.arb.outstanding.filter fun y => y.1 != tag }
            watch :=
              { s.watch with
                reports :=
                  s.watch.reports ++
                    [{ block := e.block, quad := e.quad
                       items :=
                        (beats.zipIdx e.firstLine).map fun y =>
                          (y.2,
                            if y.1.side = 0#2 then ItemStatus.ok
                            else if y.1.side = 1#2 then ItemStatus.corrected
                            else ItemStatus.uncorrectable) }] }
            req := { s.req with credits := s.req.credits + 1, slots := s.req.slots.set k none }
            upSent := s.upSent ++ [.response x.tag .done x.size.code beats, .credit 1#8] }) ∧
    (¬(status = 0#2 ∧ beats.length = e.size.lines ∧ ∀ b ∈ beats, b.side ≠ 3#2) →
      exec (.downstreamResponse tag status beats false) s =
        .next
          { s with
            arb := { s.arb with outstanding := s.arb.outstanding.filter fun y => y.1 != tag }
            watch :=
              { s.watch with
                reports :=
                  s.watch.reports ++
                    [{ block := e.block, quad := e.quad
                       items := (List.range e.size.lines).map fun i => (e.firstLine + i, ItemStatus.failed) }] }
            req := { s.req with credits := s.req.credits + 1, slots := s.req.slots.set k none }
            upSent := s.upSent ++ [.response x.tag .failed x.size.code [], .credit 1#8] })) ∧
  (∀ (tag : Tag) (status : BitVec 2) (beats : List ReadBeat) (first : Bool) (e : OutEntry) (k : Nat) (x : Slot) (h : Half)
    (s : State), s.pwrOk = true → s.arb.linkUp = true → (s.arb.outstanding.map Prod.fst).Nodup →
    (tag, e) ∈ s.arb.outstanding → e.owner = .request k → e.dir = .write → s.req.slots[k]? = some (some x) →
    x.state = .active → x.kind = .write → x.first = some h → h.answer = none → h.tag = tag → x.second = none →
    x.merged = none →
    ∃ u : State, exec (.downstreamResponse tag status beats first) s = .next u ∧
      State.removalTaken
        { s with
          arb := { s.arb with outstanding := s.arb.outstanding.filter fun y => y.1 != tag }
          req := { s.req with credits := s.req.credits + 1, slots := s.req.slots.set k none }
          upSent :=
            s.upSent ++
              [.response x.tag (if status = 1#2 ∧ beats = [] then .done else .failed) x.size.code [], .credit 1#8] }
        u e) ∧
  (∀ (tag : Tag) (status : BitVec 2) (beats : List ReadBeat) (e : OutEntry) (s : State), s.pwrOk = true →
    s.arb.linkUp = true → (s.arb.outstanding.map Prod.fst).Nodup → (tag, e) ∈ s.arb.outstanding →
    (e.dir = .write →
      exec (.downstreamResponse tag status beats true) s = exec (.downstreamResponse tag status beats false) s) ∧
    (e.dir = .read →
      ∃ u v : State,
        exec (.statusReport s.watch.reports.length)
            { s with
              watch :=
                { s.watch with reports := s.watch.reports ++ [reportOf e (answerOf e status beats)] } } =
            .next u ∧
          exec (.downstreamResponse tag status beats false) u = .next v ∧
          exec (.downstreamResponse tag status beats true) s =
            .next { v with watch := { v.watch with reports := s.watch.reports } }))

/-- A dual write: the first answer, that of the S half or of the T half, sends nothing and is kept, in ACTIVE and in ORPHAN
alike; the second is answered upstream with the worse of the two, frees the slot and grants its credit back; a FAILED half of
T is reported to the migration unit with cause WRITE_FAIL, in ACTIVE and in ORPHAN alike. The last answer of an ORPHAN, a READ
or a WRITE, of one half or of two, frees it and writes LATE_RESPONSE with the block of that half; nothing of it is sent
upstream but the credit. The entry leaves the outstanding downstream table, the migration unit takes the removal of a write,
and nothing else changes (R37, R39, R45, R53, R60). That a response is sent before the credit grant of the same event is the
model's choice (log 18). -/
def Obligations.DualAndLateAnswers : Prop :=
  (∀ (tag : Tag) (status : BitVec 2) (beats : List ReadBeat) (first : Bool) (e : OutEntry) (k : Nat) (x : Slot)
    (h1 h2 : Half) (s : State), s.pwrOk = true → s.arb.linkUp = true → (s.arb.outstanding.map Prod.fst).Nodup →
    (tag, e) ∈ s.arb.outstanding → e.owner = .request k → e.dir = .write → s.req.slots[k]? = some (some x) →
    x.state = .active ∨ x.state = .orphan → x.first = some h1 → x.second = some h2 → h1.answer = none → h1.tag = tag →
    h2.answer = none → h2.tag ≠ tag → x.merged = none →
    ∃ u : State, exec (.downstreamResponse tag status beats first) s = .next u ∧
      State.removalTaken
        { s with
          arb := { s.arb with outstanding := s.arb.outstanding.filter fun y => y.1 != tag }
          req :=
            { s.req with
              slots := s.req.slots.set k
                (some { x with
                  first := some { h1 with answer := some (if status = 1#2 ∧ beats = [] then .done else .failed) }
                  merged := some { status := if status = 1#2 ∧ beats = [] then .done else .failed, lines := [] } }) } }
        u e) ∧
  (∀ (tag : Tag) (status : BitVec 2) (beats : List ReadBeat) (first : Bool) (e : OutEntry) (k : Nat) (x : Slot)
    (h1 h2 : Half) (st : DoneOrFailed) (s : State), s.pwrOk = true → s.arb.linkUp = true →
    (s.arb.outstanding.map Prod.fst).Nodup → (tag, e) ∈ s.arb.outstanding → e.owner = .request k → e.dir = .write →
    s.req.slots[k]? = some (some x) → x.state = .active → x.kind = .write → x.first = some h1 → x.second = some h2 →
    h1.answer = some st → h2.answer = none → h2.tag = tag → x.merged = some { status := st, lines := [] } →
    ∃ u : State, exec (.downstreamResponse tag status beats first) s = .next u ∧
      State.removalTaken
        { s with
          arb := { s.arb with outstanding := s.arb.outstanding.filter fun y => y.1 != tag }
          req := { s.req with credits := s.req.credits + 1, slots := s.req.slots.set k none }
          upSent := s.upSent ++
            [.response x.tag (if st = .done ∧ status = 1#2 ∧ beats = [] then .done else .failed) x.size.code [],
              .credit 1#8]
          mig := { s.mig with failures := s.mig.failures ++
            (if status = 1#2 ∧ beats = [] then [] else [{ spare := e.block - s.limit, cause := .writeFail }]) } }
        u e) ∧
  (∀ (tag : Tag) (status : BitVec 2) (beats : List ReadBeat) (first : Bool) (e : OutEntry) (k : Nat) (x : Slot)
    (h1 h2 : Half) (s : State), s.pwrOk = true → s.arb.linkUp = true → (s.arb.outstanding.map Prod.fst).Nodup →
    (tag, e) ∈ s.arb.outstanding → e.owner = .request k → e.dir = .write → s.req.slots[k]? = some (some x) →
    x.state = .active ∨ x.state = .orphan → x.first = some h1 → x.second = some h2 → h1.answer = none →
    h1.tag ≠ tag → h2.answer = none → h2.tag = tag → x.merged = none →
    ∃ u : State, exec (.downstreamResponse tag status beats first) s = .next u ∧
      State.removalTaken
        { s with
          arb := { s.arb with outstanding := s.arb.outstanding.filter fun y => y.1 != tag }
          req :=
            { s.req with
              slots := s.req.slots.set k
                (some { x with
                  second := some { h2 with answer := some (if status = 1#2 ∧ beats = [] then .done else .failed) }
                  merged := some { status := if status = 1#2 ∧ beats = [] then .done else .failed, lines := [] } }) }
          mig := { s.mig with failures := s.mig.failures ++
            (if status = 1#2 ∧ beats = [] then [] else [{ spare := e.block - s.limit, cause := .writeFail }]) } }
        u e) ∧
  (∀ (tag : Tag) (status : BitVec 2) (beats : List ReadBeat) (first : Bool) (e : OutEntry) (k : Nat) (x : Slot)
    (h1 h2 : Half) (st : DoneOrFailed) (s : State), s.pwrOk = true → s.arb.linkUp = true →
    (s.arb.outstanding.map Prod.fst).Nodup → (tag, e) ∈ s.arb.outstanding → e.owner = .request k → e.dir = .write →
    s.req.slots[k]? = some (some x) → x.state = .active → x.kind = .write → x.first = some h1 → x.second = some h2 →
    h1.answer = none → h1.tag = tag → h2.answer = some st → x.merged = some { status := st, lines := [] } →
    ∃ u : State, exec (.downstreamResponse tag status beats first) s = .next u ∧
      State.removalTaken
        { s with
          arb := { s.arb with outstanding := s.arb.outstanding.filter fun y => y.1 != tag }
          req := { s.req with credits := s.req.credits + 1, slots := s.req.slots.set k none }
          upSent := s.upSent ++
            [.response x.tag (if st = .done ∧ status = 1#2 ∧ beats = [] then .done else .failed) x.size.code [],
              .credit 1#8] }
        u e) ∧
  (∀ (tag : Tag) (status : BitVec 2) (beats : List ReadBeat) (first : Bool) (e : OutEntry) (k : Nat) (x : Slot)
    (h : Half) (targetHalf : Bool) (s : State), s.pwrOk = true → s.arb.linkUp = true →
    (s.arb.outstanding.map Prod.fst).Nodup → (tag, e) ∈ s.arb.outstanding → e.owner = .request k → e.dir = .write →
    s.req.slots[k]? = some (some x) → x.state = .orphan → h.answer = none → h.tag = tag →
    ((targetHalf = false ∧ x.first = some h ∧ ∀ h2, x.second = some h2 → h2.answer ≠ none) ∨
      (targetHalf = true ∧ x.second = some h ∧ ∀ h1, x.first = some h1 → h1.answer ≠ none)) →
    ∃ u : State, exec (.downstreamResponse tag status beats first) s = .next u ∧
      State.removalTaken
        { s with
          arb := { s.arb with outstanding := s.arb.outstanding.filter fun y => y.1 != tag }
          req := { s.req with credits := s.req.credits + 1, slots := s.req.slots.set k none }
          upSent := s.upSent ++ [.credit 1#8]
          mig :=
            { s.mig with
              failures := s.mig.failures ++
                (if targetHalf = false ∨ (status = 1#2 ∧ beats = []) then []
                else [{ spare := e.block - s.limit, cause := .writeFail }]) }
          recs :=
            { s.recs with
              handed := s.recs.handed ++ [{ producer := .request, body := .lateResponse e.block, action := none }] } }
        u e) ∧
  (∀ (tag : Tag) (status : BitVec 2) (beats : List ReadBeat) (e : OutEntry) (k : Nat) (x : Slot) (h : Half) (s : State),
    s.pwrOk = true → s.arb.linkUp = true → (s.arb.outstanding.map Prod.fst).Nodup → (tag, e) ∈ s.arb.outstanding →
    e.owner = .request k → e.dir = .read → s.req.slots[k]? = some (some x) → x.state = .orphan → x.first = some h →
    h.answer = none → h.tag = tag → x.second = none →
    ∃ u : State, exec (.downstreamResponse tag status beats false) s = .next u ∧
      u.arb = { s.arb with outstanding := s.arb.outstanding.filter fun y => y.1 != tag } ∧
      u.watch = { s.watch with reports := s.watch.reports ++ [responseReport e status beats] } ∧
      u.upSent = s.upSent ++ [.credit 1#8] ∧
      u.req = { s.req with credits := s.req.credits + 1, slots := s.req.slots.set k none } ∧
      u.recs =
        { s.recs with
          handed := s.recs.handed ++ [{ producer := .request, body := .lateResponse e.block, action := none }] } ∧
      { u with arb := s.arb, watch := s.watch, upSent := s.upSent, req := s.req, recs := s.recs } = s)

/-- SLOT_DEADLINE_EXPIRY. A QUEUED or HELD slot is answered TIMEOUT, leaves its queue and is freed with its credit granted
back, and a RESP_TIMEOUT names the block it would have been issued to; an ACTIVE slot is answered TIMEOUT and becomes ORPHAN
with its credit kept, and the RESP_TIMEOUT names the block of an outstanding half, the first's if it is; an ORPHAN or a free
slot has no expiry. When the head expires, and when a held slot's leaving ends a stall, the hold test is made on the head; the
other slots and the order of both queues are as it leaves them (R31, R32, R42, R43, R44). That the command carries the time on
to the deadline is the model's choice (log 6), and so is that the response is sent before the credit grant of the same event
(log 18). -/
def Obligations.SlotDeadlineTimesOut : Prop :=
  (∀ (k : Nat) (x : Slot) (p : Nat) (s : State), s.pwrOk = true → s.req.slots[k]? = some (some x) →
    x.state = .queued ∨ x.state = .held →
    ((s.mig.context.steer x.l x.q x.kind = .notUnderMigration ∧ p = s.translate x.l) ∨
      s.mig.context.steer x.l x.q x.kind = .source p ∨
      (∃ sp, s.mig.context.steer x.l x.q x.kind = .target sp ∧ p = s.limit + sp) ∨
      (∃ sp, s.mig.context.steer x.l x.q x.kind = .dual p sp) ∨
      s.mig.context.steer x.l x.q x.kind = .held p) →
    ∃ (u : State) (freed : RequestUnit), exec (.slotDeadlineExpiry k) s = .next u ∧
      u.upSent = s.upSent ++ [.response x.tag .timeout x.size.code [], .credit 1#8] ∧
      freed =
        { credits := s.req.credits + 1, slots := s.req.slots.set k none
          relay := s.req.relay.filter fun j => j != k, hold := s.req.hold.filter fun j => j != k } ∧
      ((x.state = .queued ∧ s.req.relay.head? = some k) ∨ (x.state = .held ∧ s.waitsForRoom) →
        s.mig.context.holdTested freed u.req) ∧
      (¬((x.state = .queued ∧ s.req.relay.head? = some k) ∨ (x.state = .held ∧ s.waitsForRoom)) → u.req = freed) ∧
      u.recs =
        { s.recs with
          handed := s.recs.handed ++ [{ producer := .request, body := .respTimeout .request p, action := none }] } ∧
      u.clock = { s.clock with now := max s.clock.now x.deadline } ∧
      { u with upSent := s.upSent, req := s.req, recs := s.recs, clock := s.clock, patrol := s.patrol } = s) ∧
  (∀ (k : Nat) (x : Slot) (h : Half) (p : Nat) (s : State), s.pwrOk = true → s.req.slots[k]? = some (some x) →
    x.state = .active → x.first = some h →
    (h.answer = none ∧ p = h.block) ∨ (h.answer ≠ none ∧ ∃ h2, x.second = some h2 ∧ p = h2.block) →
    ∃ u : State, exec (.slotDeadlineExpiry k) s = .next u ∧
      u.upSent = s.upSent ++ [.response x.tag .timeout x.size.code []] ∧
      u.req = { s.req with slots := s.req.slots.set k (some { x with state := .orphan, answered := true }) } ∧
      u.recs =
        { s.recs with
          handed := s.recs.handed ++ [{ producer := .request, body := .respTimeout .request p, action := none }] } ∧
      u.clock = { s.clock with now := max s.clock.now x.deadline } ∧
      { u with upSent := s.upSent, req := s.req, recs := s.recs, clock := s.clock, patrol := s.patrol } = s) ∧
  (∀ (k : Nat) (s : State), (∀ x : Slot, s.req.slots[k]? = some (some x) → x.state = .orphan) →
    exec (.slotDeadlineExpiry k) s = .next s)

/-! ### Migration (R65 to R73, R76, R77, R79 to R90, R92) -/

/-- START with an outstanding start event, the context IDLE, the part READY and PRST_N high: the startable request nearest the
head leaves the waiting list; with a spare available the lowest is RESERVED for its L and the context copies from its
translation; with none the request is dropped with NO_SPARE, its triggering block marked RETIRE_DENIED (R10, R71, R72,
R73). -/
def Obligations.StartReservesLowestSpare : Prop :=
  ∀ (before after : List RetireRequest) (r : RetireRequest) (s : State), s.pwrOk = true → s.isReady = true →
    s.prstN = true → s.mig.startEvent = true → s.mig.context = .idle → s.mig.waiting = before ++ r :: after →
    (∀ b ∈ before, ∃ e ∈ s.table, e.serves? = some b.l ∧ e.commitPending = true) →
    (∀ e ∈ s.table, e.serves? = some r.l → e.commitPending = false) →
    (∀ k < 128, s.mayBeTarget k → (∀ j < k, ¬s.mayBeTarget j) →
      exec .start s =
        .next
          { s with
            table := s.table.set k (.reserved r.l)
            mig :=
              { s.mig with
                waiting := before ++ after, startEvent := false,
                context := .copying { req := r, source := s.translate r.l, target := k } 0 none } }) ∧
    ((∀ k < 128, ¬s.mayBeTarget k) →
      ∃ u : State, exec .start s = .next u ∧
        u.mig = { s.mig with waiting := before ++ after, startEvent := true } ∧
        u.recs =
          { s.recs with
            handed := s.recs.handed ++ [{ producer := .migration, body := .noSpare r.l, action := none }] } ∧
        (r.origin = .manual → u.watch = s.watch) ∧
        (∀ p, r.origin = .auto p →
          u.watch =
            { s.watch with
              suspects := s.watch.suspects.map fun y =>
                y.map fun e => if e.block = p then { e with denied := true } else e }) ∧
        { u with mig := s.mig, recs := s.recs, watch := s.watch } = s)

/-- CLAIM locks quad P; the phase is CLAIMED while a request-path write to quad P of S is outstanding, and READING, with the
copy read offered, when none is. CLAIM_DRAIN_MET makes the same test later, and so does the response that removes a
request-path write to quad P of S (R53, R76, R77). -/
def Obligations.ClaimWaitsForWrites : Prop :=
  ∀ (m : Move) (p : Nat) (s : State), s.pwrOk = true →
    (s.mig.context = .copying m p none → p < 64 → s.drainsQuad m.source p →
      exec .claim s = .next { s with mig := { s.mig with context := .copying m p (some .claimed) } }) ∧
    (s.mig.context = .copying m p none → p < 64 → ¬s.drainsQuad m.source p →
      exec .claim s = .next { s with mig := { s.mig with context := .copying m p (some (.reading none)) } }) ∧
    (s.mig.context = .copying m p (some .claimed) → s.drainsQuad m.source p →
      exec .claimDrainMet s = .next s) ∧
    (s.mig.context = .copying m p (some .claimed) → ¬s.drainsQuad m.source p →
      exec .claimDrainMet s = .next { s with mig := { s.mig with context := .copying m p (some (.reading none)) } }) ∧
    (∀ (tag : Tag) (status : BitVec 2) (beats : List ReadBeat) (first : Bool) (e : OutEntry) (k : Nat),
      s.mig.context = .copying m p (some .claimed) → s.arb.linkUp = true → (s.arb.outstanding.map Prod.fst).Nodup →
      (tag, e) ∈ s.arb.outstanding → e.owner = .request k → e.dir = .write → e.block = m.source → e.quad = p →
      ∃ u : State, exec (.downstreamResponse tag status beats first) s = .next u ∧
        (s.drainsQuadBeside tag m.source p → u.mig.context = .copying m p (some .claimed)) ∧
        (¬s.drainsQuadBeside tag m.source p → u.mig.context = .copying m p (some (.reading none))) ∧
        u.mig.waiting = s.mig.waiting ∧ u.mig.startEvent = s.mig.startEvent ∧ u.table = s.table)

/-- COMMIT in FINISHING with no request-path write to S outstanding: T goes to SOFT for L; a spare S is RETIRED, keeping its L and
its fuse slot; every other entry is as before; the suspect entry of S is freed; MIG_DONE is handed; the context is IDLE
and a start event arises. With such a write outstanding nothing changes. The response that removes the last such write
brings the same commit (R11, R53, R84, R85, R115). -/
def Obligations.CommitSwitchesTranslation : Prop :=
  ∀ (m : Move) (s : State), s.pwrOk = true → s.mig.context = .finishing m → s.table.length = 128 → m.target < 128 →
    m.source ≠ s.limit + m.target → s.watch.blocks.Nodup →
    (s.drainsBlock m.source → exec .commit s = .next s) ∧
    (¬s.drainsBlock m.source →
      ∃ u : State, exec .commit s = .next u ∧ s.switchedBy u m ∧
        u.mig = { s.mig with context := .idle, startEvent := true } ∧
        u.recs =
          { s.recs with
            handed := s.recs.handed ++
              [{ producer := .migration, body := .migDone m.req.l m.source m.target, action := none }] } ∧
        { u with table := s.table, watch := s.watch, mig := s.mig, recs := s.recs } = s) ∧
    (∀ (tag : Tag) (status : BitVec 2) (beats : List ReadBeat) (first : Bool) (e : OutEntry) (k : Nat),
      s.arb.linkUp = true → (s.arb.outstanding.map Prod.fst).Nodup → (tag, e) ∈ s.arb.outstanding →
      e.owner = .request k → e.dir = .write → e.block = m.source →
      ∃ u : State, exec (.downstreamResponse tag status beats first) s = .next u ∧
        u.mig.waiting = s.mig.waiting ∧
        (s.drainsBlockBeside tag m.source →
          u.mig.context = .finishing m ∧ u.mig.startEvent = s.mig.startEvent ∧ u.table = s.table ∧
            u.watch = s.watch) ∧
        (¬s.drainsBlockBeside tag m.source →
          u.mig.context = .idle ∧ u.mig.startEvent = true ∧ s.switchedBy u m ∧
            ∃ before : List Handed, u.recs.handed =
              before ++ [{ producer := .migration, body := .migDone m.req.l m.source m.target, action := none }]))

/-- The end of a migration at its copy deadline. A copy read that times out frees T, writes MIG_FAILED(TIMEOUT) and discards
the request; a copy write that times out is a target failure with cause WRITE_TIMEOUT: T is RETIRED, TARGET_BAD is written,
and by the retry count and RETRY_LIMIT the request returns to the head or is discarded with MIG_FAILED(RETRIES). The held
slots return to the front of the relay queue as QUEUED; the context is IDLE (R33, R81, R83, R87, R88, R89). That the command
carries the time on to the deadline is the model's choice (log 6). -/
def Obligations.CopyDeadlineStops : Prop :=
  ∀ (m : Move) (p : Nat) (c : InFlight) (s : State), s.pwrOk = true →
    (s.mig.context = .copying m p (some (.reading (some c))) →
      ∃ u : State, exec .copyDeadlineExpiry s = .next u ∧ u.table = s.table.set m.target .free ∧
        u.mig = { s.mig with context := .idle, startEvent := true } ∧
        u.recs =
          { s.recs with
            handed := s.recs.handed ++
              [{ producer := .migration, body := .migFailed m.req.l .timeout, action := none }] } ∧
        s.heldReturned u ∧
        u.clock = { s.clock with now := max s.clock.now c.deadline } ∧
        { u with table := s.table, mig := s.mig, recs := s.recs, req := s.req, clock := s.clock,
                 patrol := s.patrol } = s) ∧
    (∀ lines, s.mig.context = .copying m p (some (.writing lines (some c))) →
      ∃ u : State, exec .copyDeadlineExpiry s = .next u ∧
        u.table = s.table.set m.target (.retired none none false false) ∧
        s.heldReturned u ∧
        (m.req.retry + 1 ≤ s.params.retryLimit →
          u.mig =
              { s.mig with
                context := .idle, startEvent := true,
                waiting := { m.req with retry := m.req.retry + 1 } :: s.mig.waiting } ∧
            u.recs =
              { s.recs with
                handed := s.recs.handed ++
                  [{ producer := .migration, body := .targetBad m.req.l m.target .writeTimeout, action := none }] }) ∧
        (s.params.retryLimit < m.req.retry + 1 →
          u.mig = { s.mig with context := .idle, startEvent := true } ∧
            u.recs =
              { s.recs with
                handed := s.recs.handed ++
                  [{ producer := .migration, body := .targetBad m.req.l m.target .writeTimeout, action := none },
                   { producer := .migration, body := .migFailed m.req.l .retries, action := none }] }) ∧
        u.clock = { s.clock with now := max s.clock.now c.deadline } ∧
        { u with table := s.table, mig := s.mig, recs := s.recs, req := s.req, clock := s.clock,
                 patrol := s.patrol } = s)

/-- TARGET_FAILURE: a report that names the target of a migration in COPYING stops it: the lock, if present, is released and
the held slots return to the front of the relay queue, T is RETIRED, TARGET_BAD carries the report's cause, and the retry
decision follows. Any other report is taken and changes nothing else (R33, R81, R86, R87, R88). A report
is matched by its spare alone, the model's choice (log 32); the TARGET_BAD carries the report's firing number (log 13). -/
def Obligations.TargetFailureRetires : Prop :=
  ∀ (k : Nat) (r : FailureReport) (s : State), s.pwrOk = true → s.mig.failures[k]? = some r →
    (∀ m p lock, s.mig.context = .copying m p lock → r.spare = m.target →
      ∃ u : State, exec (.targetFailure k) s = .next u ∧
        u.table = s.table.set m.target (.retired none none false false) ∧
        (m.req.retry + 1 ≤ s.params.retryLimit →
          u.mig =
              { waiting := { m.req with retry := m.req.retry + 1 } :: s.mig.waiting, context := .idle,
                startEvent := true, failures := s.mig.failures.eraseIdx k } ∧
            u.recs =
              { s.recs with
                handed := s.recs.handed ++
                  [{ producer := .migration, body := .targetBad m.req.l m.target r.cause, action := none,
                     firing := r.firing }] }) ∧
        (s.params.retryLimit < m.req.retry + 1 →
          u.mig =
              { waiting := s.mig.waiting, context := .idle, startEvent := true,
                failures := s.mig.failures.eraseIdx k } ∧
            u.recs =
              { s.recs with
                handed := s.recs.handed ++
                  [{ producer := .migration, body := .targetBad m.req.l m.target r.cause, action := none,
                     firing := r.firing },
                   { producer := .migration, body := .migFailed m.req.l .retries, action := none }] }) ∧
        (lock = none → u.req = s.req) ∧ (lock ≠ none → s.heldReturned u) ∧
        { u with table := s.table, mig := s.mig, recs := s.recs, req := s.req } = s) ∧
    ((∀ m p lock, s.mig.context = .copying m p lock → r.spare ≠ m.target) →
      exec (.targetFailure k) s =
        .next { s with mig := { s.mig with failures := s.mig.failures.eraseIdx k } })

/-- The responses of the copy engine's requests. The awaited read fills the buffer, an UNCORRECTABLE line poisoned and
recorded with COPY_POISON, and the copy write is offered; one taken as FAILED fills it with four poisoned lines of zero data
and four COPY_POISON records; the awaited DONE of a write below quad 63 advances P and returns the held slots to the front of
the relay queue as QUEUED; at quad 63 the context goes to FINISHING, and commits at once when no request-path write to S is
outstanding; the awaited write taken as FAILED is a target failure with cause WRITE_FAIL; a response whose tag is not the copy
tag changes nothing of the migration (R33, R79, R80, R81, R82, R84, R86, R87, R88). -/
def Obligations.CopyResponsesMoveTheCopy : Prop :=
  (∀ (tag : Tag) (beats : List ReadBeat) (e : OutEntry) (m : Move) (p deadline : Nat) (s : State), s.pwrOk = true →
    s.arb.linkUp = true → (s.arb.outstanding.map Prod.fst).Nodup → (tag, e) ∈ s.arb.outstanding → e.owner = .copy →
    e.dir = .read → s.mig.context = .copying m p (some (.reading (some { tag := tag, deadline := deadline }))) →
    beats.length = e.size.lines → (∀ b ∈ beats, b.side ≠ 3#2) →
    ∃ u : State, exec (.downstreamResponse tag 0#2 beats false) s = .next u ∧
      u.arb = { s.arb with outstanding := s.arb.outstanding.filter fun y => y.1 != tag } ∧
      u.watch = { s.watch with reports := s.watch.reports ++ [responseReport e 0#2 beats] } ∧
      u.mig =
        { s.mig with
          context :=
            .copying m p
              (some (.writing (beats.map fun b => { data := b.data, poison := b.side == 2#2 }) none)) } ∧
      u.recs =
        { s.recs with
          handed := s.recs.handed ++
            ((beats.zipIdx.filter fun y => y.1.side == 2#2).map fun y =>
              { producer := .migration, body := .copyPoison m.req.l (4 * p + y.2) m.source, action := none }) } ∧
      { u with arb := s.arb, watch := s.watch, mig := s.mig, recs := s.recs } = s) ∧
  (∀ (tag : Tag) (status : BitVec 2) (beats : List ReadBeat) (e : OutEntry) (m : Move) (p deadline : Nat) (s : State),
    s.pwrOk = true → s.arb.linkUp = true → (s.arb.outstanding.map Prod.fst).Nodup → (tag, e) ∈ s.arb.outstanding →
    e.owner = .copy → e.dir = .read →
    s.mig.context = .copying m p (some (.reading (some { tag := tag, deadline := deadline }))) →
    ¬(status = 0#2 ∧ beats.length = e.size.lines ∧ ∀ b ∈ beats, b.side ≠ 3#2) →
    ∃ u : State, exec (.downstreamResponse tag status beats false) s = .next u ∧
      u.arb = { s.arb with outstanding := s.arb.outstanding.filter fun y => y.1 != tag } ∧
      u.watch = { s.watch with reports := s.watch.reports ++ [responseReport e status beats] } ∧
      u.mig =
        { s.mig with
          context := .copying m p (some (.writing (List.replicate 4 { data := 0#512, poison := true }) none)) } ∧
      u.recs =
        { s.recs with
          handed := s.recs.handed ++
            [{ producer := .migration, body := .copyPoison m.req.l (4 * p) m.source, action := none },
             { producer := .migration, body := .copyPoison m.req.l (4 * p + 1) m.source, action := none },
             { producer := .migration, body := .copyPoison m.req.l (4 * p + 2) m.source, action := none },
             { producer := .migration, body := .copyPoison m.req.l (4 * p + 3) m.source, action := none }] } ∧
      { u with arb := s.arb, watch := s.watch, mig := s.mig, recs := s.recs } = s) ∧
  (∀ (tag : Tag) (e : OutEntry) (m : Move) (p deadline : Nat) (lines : List WriteLine) (s : State), s.pwrOk = true →
    s.arb.linkUp = true → (s.arb.outstanding.map Prod.fst).Nodup → (tag, e) ∈ s.arb.outstanding → e.owner = .copy →
    e.dir = .write → p + 1 < 64 →
    s.mig.context = .copying m p (some (.writing lines (some { tag := tag, deadline := deadline }))) →
    ∃ u : State, exec (.downstreamResponse tag 1#2 [] false) s = .next u ∧
      u.arb = { s.arb with outstanding := s.arb.outstanding.filter fun y => y.1 != tag } ∧
      u.mig = { s.mig with context := .copying m (p + 1) none } ∧
      s.heldReturned u ∧
      { u with arb := s.arb, mig := s.mig, req := s.req } = s) ∧
  (∀ (tag : Tag) (e : OutEntry) (m : Move) (deadline : Nat) (lines : List WriteLine) (s : State), s.pwrOk = true →
    s.arb.linkUp = true → (s.arb.outstanding.map Prod.fst).Nodup → (tag, e) ∈ s.arb.outstanding → e.owner = .copy →
    e.dir = .write → s.mig.context = .copying m 63 (some (.writing lines (some { tag := tag, deadline := deadline }))) →
    s.table.length = 128 → m.target < 128 → m.source ≠ s.limit + m.target → s.watch.blocks.Nodup →
    ∃ u : State, exec (.downstreamResponse tag 1#2 [] false) s = .next u ∧
      u.arb = { s.arb with outstanding := s.arb.outstanding.filter fun y => y.1 != tag } ∧
      s.heldReturned u ∧
      (s.drainsBlock m.source →
        u.mig = { s.mig with context := .finishing m } ∧ { u with arb := s.arb, mig := s.mig, req := s.req } = s) ∧
      (¬s.drainsBlock m.source →
        s.switchedBy u m ∧ u.mig = { s.mig with context := .idle, startEvent := true } ∧
          u.recs =
            { s.recs with
              handed := s.recs.handed ++
                [{ producer := .migration, body := .migDone m.req.l m.source m.target, action := none }] } ∧
          { u with table := s.table, watch := s.watch, arb := s.arb, mig := s.mig, req := s.req, recs := s.recs } =
            s)) ∧
  (∀ (tag : Tag) (status : BitVec 2) (beats : List ReadBeat) (e : OutEntry) (m : Move) (p deadline : Nat)
    (lines : List WriteLine) (s : State), s.pwrOk = true → s.arb.linkUp = true →
    (s.arb.outstanding.map Prod.fst).Nodup → (tag, e) ∈ s.arb.outstanding → e.owner = .copy → e.dir = .write →
    s.mig.context = .copying m p (some (.writing lines (some { tag := tag, deadline := deadline }))) →
    ¬(status = 1#2 ∧ beats = []) →
    ∃ u : State, exec (.downstreamResponse tag status beats false) s = .next u ∧
      u.arb = { s.arb with outstanding := s.arb.outstanding.filter fun y => y.1 != tag } ∧
      u.table = s.table.set m.target (.retired none none false false) ∧
      s.heldReturned u ∧
      (m.req.retry + 1 ≤ s.params.retryLimit →
        u.mig =
            { s.mig with
              context := .idle, startEvent := true,
              waiting := { m.req with retry := m.req.retry + 1 } :: s.mig.waiting } ∧
          u.recs =
            { s.recs with
              handed := s.recs.handed ++
                [{ producer := .migration, body := .targetBad m.req.l m.target .writeFail, action := none }] }) ∧
      (s.params.retryLimit < m.req.retry + 1 →
        u.mig = { s.mig with context := .idle, startEvent := true } ∧
          u.recs =
            { s.recs with
              handed := s.recs.handed ++
                [{ producer := .migration, body := .targetBad m.req.l m.target .writeFail, action := none },
                 { producer := .migration, body := .migFailed m.req.l .retries, action := none }] }) ∧
      { u with arb := s.arb, table := s.table, mig := s.mig, recs := s.recs, req := s.req } = s) ∧
  (∀ (tag : Tag) (status : BitVec 2) (beats : List ReadBeat) (e : OutEntry) (s : State), s.pwrOk = true →
    s.arb.linkUp = true → (s.arb.outstanding.map Prod.fst).Nodup → (tag, e) ∈ s.arb.outstanding → e.owner = .copy →
    (∀ m p deadline, s.mig.context ≠ .copying m p (some (.reading (some { tag := tag, deadline := deadline })))) →
    (∀ m p lines deadline,
      s.mig.context ≠ .copying m p (some (.writing lines (some { tag := tag, deadline := deadline })))) →
    ∃ u : State, exec (.downstreamResponse tag status beats false) s = .next u ∧
      u.arb = { s.arb with outstanding := s.arb.outstanding.filter fun y => y.1 != tag } ∧
      u.watch =
        { s.watch with
          reports := s.watch.reports ++ (if e.dir = .read then [responseReport e status beats] else []) } ∧
      { u with arb := s.arb, watch := s.watch } = s)

/-- RETIRE(L) and CANCEL_RETIRE(L): each check's answer in order, and the effect when every check passes (R68, R69). -/
def Obligations.RetireAndCancelCommands : Prop :=
  ∀ (args : List Byte) (s : State), s.accepts → args.length = 3 →
    (s.limit ≤ ofBe args → exec (.retire args) s = .next (s.answered .retire 3 .range [])) ∧
    (ofBe args < s.limit → ofBe args ∈ s.mig.blocks →
      exec (.retire args) s = .next (s.answered .retire 3 .already [])) ∧
    (ofBe args < s.limit → ofBe args ∉ s.mig.blocks → 8 ≤ s.mig.occupancy →
      exec (.retire args) s = .next (s.answered .retire 3 .full [])) ∧
    (ofBe args < s.limit → ofBe args ∉ s.mig.blocks → s.mig.occupancy < 8 →
      exec (.retire args) s =
        .next
          (State.answered
            { s with
              mig :=
                { s.mig with
                  waiting := s.mig.waiting ++
                    [{ l := ofBe args, origin := .manual, retry := 0, enqueued := s.clock.epoch }],
                  startEvent := true } }
            .retire 3 .ok (be3 (ofBe args) ++ be1 (s.mig.occupancy + 1)))) ∧
    (s.limit ≤ ofBe args → exec (.cancelRetire args) s = .next (s.answered .cancelRetire 3 .range [])) ∧
    (ofBe args < s.limit → (∀ r ∈ s.mig.waiting, r.l ≠ ofBe args) →
      exec (.cancelRetire args) s = .next (s.answered .cancelRetire 3 .none [])) ∧
    (∀ before after r, ofBe args < s.limit → s.mig.waiting = before ++ r :: after → r.l = ofBe args →
      (∀ b ∈ before, b.l ≠ ofBe args) →
      exec (.cancelRetire args) s =
        .next
          (State.answered { s with mig := { s.mig with waiting := before ++ after } } .cancelRetire 3 .ok
            (be1 r.origin.number ++ be1 r.retry ++ be4 r.enqueued.toNat)))

/-- ABORT_MIGRATION by the context's state: NONE in IDLE, TOO_LATE in FINISHING; in COPYING T is released, MIG_ABORTED(MANUAL) is
written, the request is discarded, the context goes to IDLE with a start event, and the held slots return to the front of
the relay queue as QUEUED (R33, R81, R90). -/
def Obligations.AbortMigrationCommand : Prop :=
  ∀ s : State, s.accepts →
    (s.mig.context = .idle → exec (.abortMigration []) s = .next (s.answered .abortMigration 0 .none [])) ∧
    (∀ m, s.mig.context = .finishing m →
      exec (.abortMigration []) s = .next (s.answered .abortMigration 0 .tooLate [])) ∧
    (∀ m p lock, s.mig.context = .copying m p lock →
      ∃ u : State,
        exec (.abortMigration []) s =
            .next (u.answered .abortMigration 0 .ok (be3 m.req.l ++ be1 m.target ++ be1 p)) ∧
          u.table = s.table.set m.target .free ∧ u.mig = { s.mig with context := .idle, startEvent := true } ∧
          u.recs =
            { s.recs with
              handed := s.recs.handed ++
                [{ producer := .migration, body := .migAborted m.req.l .manual, action := none }] } ∧
          (lock = none → u.req = s.req) ∧
          (lock ≠ none → s.heldReturned u) ∧
          { u with table := s.table, mig := s.mig, recs := s.recs, req := s.req } = s)

/-- READ_MIGRATION changes nothing but the held result; the payload bytes in IDLE, in COPYING and FINISHING, and of a waiting
request (R92, R201). -/
def Obligations.ReadMigrationCommand : Prop :=
  ∀ s : State, s.accepts →
    (s.mig.context = .idle →
      exec (.readMigration []) s =
        .next
          (s.answered .readMigration 0 .ok
            (List.replicate 9 0#8 ++ [0xFF#8, 0xFF#8] ++ List.replicate 10 0#8 ++ be1 s.mig.waiting.length ++
              be1 s.mig.occupancy ++ be1 (s.mig.waiting.countP fun r => deferred s.table r.l)))) ∧
    (∀ m p lock, s.mig.context = .copying m p lock →
      exec (.readMigration []) s =
        .next
          (s.answered .readMigration 0 .ok
            ([1#8] ++ be3 m.req.l ++ be3 m.source ++ be1 m.target ++ be1 p ++
              (match lock with
                | none => [0xFF#8, 0xFF#8]
                | some .claimed => be1 p ++ [0#8]
                | some (.reading _) => be1 p ++ [1#8]
                | some (.writing _ _) => be1 p ++ [2#8]) ++
              be1 m.req.retry ++
              (match m.req.origin with
                | .auto b => [0#8] ++ be3 b ++ [1#8]
                | .manual => [1#8, 0#8, 0#8, 0#8, 0#8]) ++
              be4 m.req.enqueued.toNat ++ be1 s.mig.waiting.length ++ be1 s.mig.occupancy ++
              be1 (s.mig.waiting.countP fun r => deferred s.table r.l)))) ∧
    (∀ m, s.mig.context = .finishing m →
      exec (.readMigration []) s =
        .next
          (s.answered .readMigration 0 .ok
            ([2#8] ++ be3 m.req.l ++ be3 m.source ++ be1 m.target ++ [64#8, 0xFF#8, 0xFF#8] ++ be1 m.req.retry ++
              (match m.req.origin with
                | .auto b => [0#8] ++ be3 b ++ [1#8]
                | .manual => [1#8, 0#8, 0#8, 0#8, 0#8]) ++
              be4 m.req.enqueued.toNat ++ be1 s.mig.waiting.length ++ be1 s.mig.occupancy ++
              be1 (s.mig.waiting.countP fun r => deferred s.table r.l)))) ∧
    (∀ b : Byte, 7 < b.toNat → exec (.readMigration [b]) s = .next (s.answered .readMigration 1 .range [])) ∧
    (∀ b : Byte, b.toNat ≤ 7 → s.mig.waiting.length ≤ b.toNat →
      exec (.readMigration [b]) s = .next (s.answered .readMigration 1 .none [])) ∧
    (∀ (b : Byte) (r : RetireRequest), b.toNat ≤ 7 → s.mig.waiting[b.toNat]? = some r →
      exec (.readMigration [b]) s =
        .next
          (s.answered .readMigration 1 .ok
            ([b] ++ be3 r.l ++
              (match r.origin with
                | .auto _ => [0#8] ++ be1 (1 + if deferred s.table r.l then 2 else 0)
                | .manual => [1#8] ++ be1 (if deferred s.table r.l then 2 else 0)) ++
              (match r.origin with
                | .auto p => be3 p
                | .manual => [0#8, 0#8, 0#8]) ++
              be1 r.retry ++ be4 r.enqueued.toNat)))

/-! ### Error watch (R98 to R118) -/

/-- A status report whose counted items fire nothing: the CORRECTED items raise the CE count, the UNCORRECTABLE and FAILED
items the UE count, each up to 255, in the entry for the block, which takes the current epoch as its last; nothing else
changes but that the report has been taken. A class with no item in the report does not fire, whatever its count (R100, R102,
R103, R105, R106). -/
def Obligations.StatusReportCounts : Prop :=
  ∀ (k i n m : Nat) (r : StatusReport) (e : Suspect) (s : State), s.pwrOk = true → s.watch.reports[k]? = some r →
    s.watch.blocks.Nodup → s.isCounted r.block → s.countsInto r.block i e → e.ce ≤ 255 → e.ue ≤ 255 →
    (r.items.countP fun x => x.2 == .corrected) = n →
    (r.items.countP fun x => x.2 == .uncorrectable || x.2 == .failed) = m → 0 < n + m →
    (n = 0 ∨ e.ceFired = true ∨ e.ce + n < s.params.ceLimit) →
    (m = 0 ∨ e.ueFired = true ∨ e.ue + m < s.params.ueLimit) →
    exec (.statusReport k) s =
      .next
        { s with
          watch :=
            { s.watch with
              reports := s.watch.reports.eraseIdx k
              suspects :=
                s.watch.suspects.set i
                  (some { e with ce := min 255 (e.ce + n), ue := min 255 (e.ue + m), last := s.clock.epoch }) } }

/-- Reports that are not counted: one whose items are all OK, and one for a home block remapped away or a retired spare, is taken
and changes nothing. A report that finds no entry, no free position and no candidate is refused, with SUSPECT_FULL once
(R100, R101, R104). -/
def Obligations.ReportsNotCounted : Prop :=
  ∀ (k : Nat) (r : StatusReport) (s : State), s.pwrOk = true → s.watch.reports[k]? = some r →
    ((∀ x ∈ r.items, x.2 = .ok) →
      exec (.statusReport k) s =
        .next { s with watch := { s.watch with reports := s.watch.reports.eraseIdx k } }) ∧
    (¬s.isCounted r.block →
      exec (.statusReport k) s =
        .next { s with watch := { s.watch with reports := s.watch.reports.eraseIdx k } }) ∧
    (s.isCounted r.block → (∃ x ∈ r.items, x.2 ≠ .ok) → r.block ∉ s.watch.blocks →
      (∀ x ∈ s.watch.suspects, ∃ e : Suspect, x = some e ∧ (e.ceFired = true ∨ e.ueFired = true)) →
      (s.watch.fullReported = true →
        exec (.statusReport k) s =
          .next { s with watch := { s.watch with reports := s.watch.reports.eraseIdx k } }) ∧
      (s.watch.fullReported = false →
        exec (.statusReport k) s =
          .next
            { s with
              watch := { s.watch with reports := s.watch.reports.eraseIdx k, fullReported := true }
              recs :=
                { s.recs with
                  handed := s.recs.handed ++
                    [{ producer := .watch, body := .suspectFull r.block, action := none }] } }))

/-- The firing of a class at the one error item of a report, by the class's action: NONE counts only; LOG and ALERT write the
limit record and set the fired flag or, under AUTO, reset the count; RETIRE sets the flag and enqueues the block served
(merged, accepted, or refused with QUEUE_FULL and RETIRE_DENIED), retires a free spare with SPARE_BANNED, or reports a target
failure. A report with several error items acts as its first items taken as one report and the others as the next, while the
class of the block stands; where a RETIRE firing has retired a free spare, the later items are still counted by the class
taken for the report: they count, and fire with NONE, LOG or ALERT, as with the spare still FREE, and a RETIRE firing of the
other class writes its limit record and nothing further (R101, R105 to R112). The number a firing on a spare gives its records
is the model's own (log 13). -/
def Obligations.LimitFiringActs : Prop :=
  (∀ (k i line n : Nat) (r : StatusReport) (pre post : List (Nat × ItemStatus)) (st : ItemStatus) (c : LimitClass)
    (e e1 : Suspect) (s : State), s.pwrOk = true → s.watch.reports[k]? = some r → s.watch.blocks.Nodup →
    s.isCounted r.block → s.countsInto r.block i e → r.items = pre ++ (line, st) :: post →
    (∀ x ∈ pre ++ post, x.2 = .ok) →
    ((c = .ce ∧ st = .corrected ∧ e1 = { e with ce := min 255 (e.ce + 1), last := s.clock.epoch }) ∨
      (c = .ue ∧ (st = .uncorrectable ∨ st = .failed) ∧
        e1 = { e with ue := min 255 (e.ue + 1), last := s.clock.epoch })) →
    n = e1.count c → s.params.limit c ≤ n → e.fired c = false →
    ∀ after : Suspect → WatchUnit,
      (∀ e2, after e2 =
        { s.watch with
          reports := s.watch.reports.eraseIdx k, suspects := s.watch.suspects.set i (some e2) }) →
      (s.params.action c = .none → exec (.statusReport k) s = .next { s with watch := after e1 }) ∧
      (s.params.action c = .log ∨ s.params.action c = .alert →
        exec (.statusReport k) s =
          .next
            { s with
              watch :=
                after (match s.params.rearmMode with
                  | .manual => e1.setFired c
                  | .auto => e1.resetCount c)
              recs :=
                { s.recs with
                  handed := s.recs.handed ++
                    [{ producer := .watch
                       body := limitRecord c r.block (s.classify r.block).served? n .none
                       action := some (s.params.action c) }] } }) ∧
      (s.params.action c = .retire →
        (∀ l, s.classify r.block = .homeInUse l ∨ (∃ sp, s.classify r.block = .servingSpare sp l) →
          (l ∈ s.mig.blocks →
            exec (.statusReport k) s =
              .next
                { s with
                  watch := after (e1.setFired c)
                  recs :=
                    { s.recs with
                      handed := s.recs.handed ++
                        [{ producer := .watch, body := limitRecord c r.block (some l) n .none
                           action := some .retire }] } }) ∧
          (l ∉ s.mig.blocks → s.mig.occupancy < 8 →
            exec (.statusReport k) s =
              .next
                { s with
                  watch := after (e1.setFired c)
                  mig :=
                    { s.mig with
                      waiting := s.mig.waiting ++
                        [{ l := l, origin := .auto r.block, retry := 0, enqueued := s.clock.epoch }]
                      startEvent := true }
                  recs :=
                    { s.recs with
                      handed := s.recs.handed ++
                        [{ producer := .watch, body := limitRecord c r.block (some l) n .none
                           action := some .retire }] } }) ∧
          (l ∉ s.mig.blocks → 8 ≤ s.mig.occupancy →
            exec (.statusReport k) s =
              .next
                { s with
                  watch := after { e1.setFired c with denied := true }
                  recs :=
                    { s.recs with
                      handed := s.recs.handed ++
                        [{ producer := .watch, body := limitRecord c r.block (some l) n .queueFull
                           action := some .retire }] } })) ∧
        (∀ sp, s.classify r.block = .freeSpare sp →
          exec (.statusReport k) s =
            .next
              { s with
                table := s.table.set sp (.retired none none false false)
                watch := { after (e1.setFired c) with firings := s.watch.firings + 1 }
                recs :=
                  { s.recs with
                    handed := s.recs.handed ++
                      [{ producer := .watch, body := limitRecord c r.block none n .none, action := some .retire,
                         firing := some s.watch.firings },
                       { producer := .watch, body := .spareBanned sp .errorLimit, action := none }] } }) ∧
        (∀ sp, s.classify r.block = .migrationTarget sp →
          exec (.statusReport k) s =
            .next
              { s with
                watch := { after (e1.setFired c) with firings := s.watch.firings + 1 }
                mig :=
                  { s.mig with
                    failures := s.mig.failures ++
                      [{ spare := sp, cause := .errorLimit, firing := some s.watch.firings }] }
                recs :=
                  { s.recs with
                    handed := s.recs.handed ++
                      [{ producer := .watch, body := limitRecord c r.block none n .none
                         action := some .retire, firing := some s.watch.firings }] } }))) ∧
  (∀ (before after : List StatusReport) (r : StatusReport) (a b : List (Nat × ItemStatus)) (s u : State), s.pwrOk = true →
    r.items = a ++ b →
    exec (.statusReport before.length)
        { s with watch := { s.watch with reports := before ++ { r with items := a } :: after } } = .next u →
    u.classify r.block = s.classify r.block →
    exec (.statusReport before.length) { s with watch := { s.watch with reports := before ++ r :: after } } =
      exec (.statusReport before.length)
        { u with watch := { u.watch with reports := before ++ { r with items := b } :: after } }) ∧
  (∀ (before after : List StatusReport) (r : StatusReport) (pre b : List (Nat × ItemStatus)) (line sp i : Nat)
    (st : ItemStatus) (c d : LimitClass) (e : Suspect) (s u v : State), s.pwrOk = true → r.items = pre ++ (line, st) :: b →
    (∀ x ∈ pre, x.2 = .ok) → s.watch.blocks.Nodup → s.countsInto r.block i e → s.classify r.block = .freeSpare sp →
    ((c = .ce ∧ st = .corrected ∧ d = .ue) ∨ (c = .ue ∧ (st = .uncorrectable ∨ st = .failed) ∧ d = .ce)) →
    e.fired c = false → s.params.limit c ≤ min 255 (e.count c + 1) → s.params.action c = .retire →
    (itemsOf d b = 0 ∨ e.fired d = true ∨ e.count d + itemsOf d b < s.params.limit d ∨ s.params.action d ≠ .retire) →
    exec (.statusReport before.length)
        { s with watch := { s.watch with reports := before ++ { r with items := pre ++ [(line, st)] } :: after } } =
      .next u →
    exec (.statusReport before.length)
        { u with
          table := s.table, watch := { u.watch with reports := before ++ { r with items := b } :: after } } =
      .next v →
    exec (.statusReport before.length) { s with watch := { s.watch with reports := before ++ r :: after } } =
      .next { v with table := u.table }) ∧
  (∀ (k i sp line1 line2 : Nat) (r : StatusReport) (pre mid post : List (Nat × ItemStatus)) (st1 st2 : ItemStatus)
    (c d : LimitClass) (e e2 : Suspect) (s : State), s.pwrOk = true → s.watch.reports[k]? = some r →
    s.watch.blocks.Nodup → s.classify r.block = .freeSpare sp → sp < s.table.length → s.countsInto r.block i e →
    r.items = pre ++ (line1, st1) :: mid ++ (line2, st2) :: post → (∀ x ∈ pre, x.2 = .ok) →
    ((c = .ce ∧ st1 = .corrected ∧ d = .ue ∧ (st2 = .uncorrectable ∨ st2 = .failed)) ∨
      (c = .ue ∧ (st1 = .uncorrectable ∨ st1 = .failed) ∧ d = .ce ∧ st2 = .corrected)) →
    e2 =
      { e with
        ce := min 255 (e.ce + itemsOf .ce r.items), ue := min 255 (e.ue + itemsOf .ue r.items)
        last := s.clock.epoch, ceFired := true, ueFired := true } →
    e.fired c = false → e.fired d = false → s.params.limit c ≤ min 255 (e.count c + 1) →
    (itemsOf d mid = 0 ∨ e.count d + itemsOf d mid < s.params.limit d) →
    s.params.limit d ≤ min 255 (e.count d + itemsOf d mid + 1) →
    s.params.action c = .retire → s.params.action d = .retire →
    exec (.statusReport k) s =
      .next
        { s with
          table := s.table.set sp (.retired none none false false)
          watch :=
            { s.watch with
              reports := s.watch.reports.eraseIdx k, suspects := s.watch.suspects.set i (some e2)
              firings := s.watch.firings + 2 }
          recs :=
            { s.recs with
              handed := s.recs.handed ++
                [{ producer := .watch, body := limitRecord c r.block none (min 255 (e.count c + 1)) .none
                   action := some .retire, firing := some s.watch.firings },
                 { producer := .watch, body := .spareBanned sp .errorLimit, action := none },
                 { producer := .watch, body := limitRecord d r.block none (min 255 (e.count d + itemsOf d mid + 1)) .none
                   action := some .retire, firing := some (s.watch.firings + 1) }] } })

/-- DECAY_EXPIRY: every CE count is halved, an entry with no fired flag and both counts 0 is freed, the full-reported flag is
cleared if one is freed, and no record is written. An expiry that is due is taken with no time passing; with none due the
ticks lacking to the decay period pass first, with the epoch, and the count is back at 0. While DECAY_PERIOD is 0 there is
no expiry (R98, R113). That the command carries the time on to the expiry is the model's choice (log 6). -/
def Obligations.DecayHalves : Prop :=
  (∀ s : State, s.params.decayPeriod = 0 → exec .decayExpiry s = .next s) ∧
  (∀ s : State, s.pwrOk = true → s.params.decayPeriod ≠ 0 → s.watch.decayDue = true →
    ∃ u : State, exec .decayExpiry s = .next u ∧ s.watch.decayedTo u.watch ∧
      u.watch.decayCount = s.watch.decayCount ∧ { u with watch := s.watch } = s) ∧
  (∀ s : State, s.pwrOk = true → s.params.decayPeriod ≠ 0 → s.watch.decayDue = false →
    s.watch.decayCount < s.params.decayPeriod * 100 →
    ∃ u : State, exec .decayExpiry s = .next u ∧ s.watch.decayedTo u.watch ∧ u.watch.decayCount = 0 ∧
      u.clock.epoch = s.clock.epoch + BitVec.ofNat 32 (s.params.decayPeriod * 100 - s.watch.decayCount) ∧
      { u.fuse with programmer := s.fuse.programmer } = s.fuse ∧
      u.patrol.block = s.patrol.block ∧ u.patrol.quad = s.patrol.quad ∧
      u.patrol.state.number = s.patrol.state.number ∧
      { u with clock := s.clock, watch := s.watch, fuse := s.fuse, patrol := s.patrol } = s)

/-- READ_SUSPECT, CLEAR_SUSPECT and REARM: each check's answer in order, the payloads of 11.3, and the effect: an entry freed with
the full-reported flag cleared, or an entry with counts 0 and flags false, its epochs kept (R116, R117, R118). -/
def Obligations.SuspectCommands : Prop :=
  (∀ (b : Byte) (s : State), s.accepts → 31 < b.toNat →
    exec (.readSuspect [b]) s = .next (s.answered .readSuspect 1 .range [])) ∧
  (∀ (b : Byte) (s : State), s.accepts → b.toNat ≤ 31 → s.watch.suspects[b.toNat]? = some none →
    exec (.readSuspect [b]) s = .next (s.answered .readSuspect 1 .none [])) ∧
  (∀ (b : Byte) (e : Suspect) (number : Nat) (l : Option Nat) (s : State), s.accepts → b.toNat ≤ 31 →
    s.watch.suspects[b.toNat]? = some (some e) →
    ((∃ x, s.classify e.block = .homeInUse x ∧ number = 0 ∧ l = some x) ∨
      (s.classify e.block = .homeRemapped ∧ number = 1 ∧ l = none) ∨
      (∃ k, s.classify e.block = .freeSpare k ∧ number = 2 ∧ l = none) ∨
      (∃ k, s.classify e.block = .migrationTarget k ∧ number = 3 ∧ l = none) ∨
      (∃ k x, s.classify e.block = .servingSpare k x ∧ number = 4 ∧ l = some x) ∨
      (∃ k, s.classify e.block = .retiredSpare k ∧ number = 5 ∧ l = none)) →
    exec (.readSuspect [b]) s =
      .next
        (s.answered .readSuspect 1 .ok
          ([b] ++ be4 s.clock.epoch.toNat ++ be3 e.block ++ be1 e.ce ++ be1 e.ue ++ be4 e.first.toNat ++
            be4 e.last.toNat ++
            be1 ((if e.ceFired then 1 else 0) + (if e.ueFired then 2 else 0) + (if e.denied then 4 else 0) +
              (if l.isSome then 8 else 0)) ++
            be1 number ++ be3 (l.getD 0)))) ∧
  (∀ (args : List Byte) (s : State), s.accepts → args.length = 3 → s.watch.blocks.Nodup →
    (s.capacityBlocks ≤ ofBe args →
      exec (.clearSuspect args) s = .next (s.answered .clearSuspect 3 .range []) ∧
        exec (.rearm args) s = .next (s.answered .rearm 3 .range [])) ∧
    (ofBe args < s.capacityBlocks → ofBe args ∉ s.watch.blocks →
      exec (.clearSuspect args) s = .next (s.answered .clearSuspect 3 .none []) ∧
        exec (.rearm args) s = .next (s.answered .rearm 3 .none [])) ∧
    (∀ (i : Nat) (e : Suspect), ofBe args < s.capacityBlocks → s.watch.suspects[i]? = some (some e) →
      e.block = ofBe args →
      exec (.clearSuspect args) s =
          .next
            (State.answered
              { s with
                watch := { s.watch with suspects := s.watch.suspects.set i none, fullReported := false } }
              .clearSuspect 3 .ok
              (be1 e.ce ++ be1 e.ue ++
                be1 ((if e.ceFired then 1 else 0) + (if e.ueFired then 2 else 0) +
                  (if e.denied then 4 else 0)))) ∧
        exec (.rearm args) s =
          .next
            (State.answered
              { s with
                watch :=
                  { s.watch with
                    suspects :=
                      s.watch.suspects.set i
                        (some { e with ce := 0, ue := 0, ceFired := false, ueFired := false, denied := false }) } }
              .rearm 3 .ok [])))

/-! ### Patrol (R121 to R131) -/

/-- GAP_EXPIRY goes from GAP to SEEKING. ISSUE_ATTEMPT offers the cursor's quad if its block is live, and otherwise moves the
cursor to quad 0 of the next block, past the last block to block 0. In any other state neither changes anything (R123,
R124, R125). That GAP_EXPIRY carries the time on is the model's choice (log 6). -/
def Obligations.PatrolAttempts : Prop :=
  (∀ (n : Nat) (s : State), s.pwrOk = true → s.patrol.state = .gap n →
    exec .gapExpiry s =
      .next
        { s with
          clock := { s.clock with now := s.clock.now + (s.params.patrolGap - n) }
          patrol := { s.patrol with state := .seeking } }) ∧
  (∀ s : State, s.pwrOk = true → s.patrol.state = .seeking →
    (s.liveBlock s.patrol.block →
      exec .issueAttempt s =
        .next { s with patrol := { s.patrol with state := .offered s.patrol.block s.patrol.quad } }) ∧
    (¬s.liveBlock s.patrol.block → s.patrol.block + 1 < s.capacityBlocks →
      exec .issueAttempt s =
        .next { s with patrol := { state := .seeking, block := s.patrol.block + 1, quad := 0 } }) ∧
    (¬s.liveBlock s.patrol.block → s.capacityBlocks ≤ s.patrol.block + 1 →
      exec .issueAttempt s = .next { s with patrol := { state := .seeking, block := 0, quad := 0 } })) ∧
  (∀ s : State, s.patrol.state.number ≠ 1 → exec .gapExpiry s = .next s) ∧
  (∀ s : State, s.patrol.state.number ≠ 2 → exec .issueAttempt s = .next s)

/-- The end of a patrol read. At the deadline RESP_TIMEOUT(PATROL) names the block read; at the awaited response a FREE spare read
badly is RETIRED with SPARE_BANNED(PATROL), and nothing else is recorded. Either way the cursor advances by one quad and
the unit goes to GAP if patrol is enabled, else to OFF. A PATROL response that is not awaited changes nothing of the
patrol unit (R127 to R131). The other order of a response's status report is stated by `ReadAnsweredUpstream`. That
PATROL_DEADLINE_EXPIRY carries the time on to the deadline is the model's choice (log 6). -/
def Obligations.PatrolReadEnds : Prop :=
  (∀ (b q d : Nat) (t : Tag) (s : State) (next : PatrolUnit), s.pwrOk = true → s.patrol.state = .reading b q t d →
    next.state = (if s.isReady = true ∧ s.prstN = true ∧ s.params.patrolGap ≠ 0 then .gap 0 else .off) →
    ((s.patrol.quad + 1 < 64 ∧ next.block = s.patrol.block ∧ next.quad = s.patrol.quad + 1) ∨
      (s.patrol.quad = 63 ∧ s.patrol.block + 1 < s.capacityBlocks ∧ next.block = s.patrol.block + 1 ∧ next.quad = 0) ∨
      (s.patrol.quad = 63 ∧ s.capacityBlocks ≤ s.patrol.block + 1 ∧ next.block = 0 ∧ next.quad = 0)) →
    exec .patrolDeadlineExpiry s =
        .next
          { s with
            clock := { s.clock with now := max s.clock.now d }
            patrol := next
            recs :=
              { s.recs with
                handed := s.recs.handed ++
                  [{ producer := .patrol, body := .respTimeout .patrol b, action := none }] } } ∧
      (∀ (status : BitVec 2) (beats : List ReadBeat) (e : OutEntry), s.arb.linkUp = true →
        (s.arb.outstanding.map Prod.fst).Nodup → (t, e) ∈ s.arb.outstanding → e.owner = .patrol → e.dir = .read →
        ((b < s.limit ∨ entryAt s.table (b - s.limit) ≠ .free ∨
            (status = 0#2 ∧ beats.length = e.size.lines ∧ ∀ y ∈ beats, y.side = 0#2 ∨ y.side = 1#2)) →
          ∃ u : State, exec (.downstreamResponse t status beats false) s = .next u ∧ u.patrol = next ∧
            u.arb = { s.arb with outstanding := s.arb.outstanding.filter fun y => y.1 != t } ∧
            u.watch = { s.watch with reports := s.watch.reports ++ [responseReport e status beats] } ∧
            { u with patrol := s.patrol, arb := s.arb, watch := s.watch } = s) ∧
        (s.limit ≤ b → entryAt s.table (b - s.limit) = .free →
          ¬(status = 0#2 ∧ beats.length = e.size.lines ∧ ∀ y ∈ beats, y.side = 0#2 ∨ y.side = 1#2) →
          ∃ u : State, exec (.downstreamResponse t status beats false) s = .next u ∧ u.patrol = next ∧
            u.arb = { s.arb with outstanding := s.arb.outstanding.filter fun y => y.1 != t } ∧
            u.watch = { s.watch with reports := s.watch.reports ++ [responseReport e status beats] } ∧
            u.table = s.table.set (b - s.limit) (.retired none none false false) ∧
            u.recs =
              { s.recs with
                handed := s.recs.handed ++
                  [{ producer := .patrol, body := .spareBanned (b - s.limit) .patrol, action := none }] } ∧
            { u with patrol := s.patrol, arb := s.arb, watch := s.watch, table := s.table, recs := s.recs } = s))) ∧
  (∀ (tag : Tag) (status : BitVec 2) (beats : List ReadBeat) (e : OutEntry) (s : State), s.pwrOk = true →
    s.arb.linkUp = true → (s.arb.outstanding.map Prod.fst).Nodup → (tag, e) ∈ s.arb.outstanding → e.owner = .patrol →
    (∀ b q d, s.patrol.state ≠ .reading b q tag d) →
    ∃ u : State, exec (.downstreamResponse tag status beats false) s = .next u ∧
      u.arb = { s.arb with outstanding := s.arb.outstanding.filter fun y => y.1 != tag } ∧
      u.watch =
        { s.watch with
          reports := s.watch.reports ++ (if e.dir = .read then [responseReport e status beats] else []) } ∧
      { u with arb := s.arb, watch := s.watch } = s)

/-! ### Records (R135 to R145, R203) -/

/-- TAKE_RECORD of a handed record that no record handed before it must precede. With room it is stored with the next sequence
number, the current epoch, its alert flag and the missed count, and the overflow state is cleared; at a full queue it is
dropped and counted. ALERT_N is driven low exactly while an alerting record is held or has been dropped. A record is not
taken while an earlier one of its unit waits, nor a TARGET_BAD while the limit record of the firing that brought it about
waits; every other order is open (R108, R137 to R141, R145; how a firing's records are known is the model's, log 13). -/
def Obligations.RecordStoredOrDropped : Prop :=
  ∀ (k : Nat) (h : Handed) (called : Bool) (s : State), s.pwrOk = true → s.recs.handed[k]? = some h →
    (h.body.isLimit = true → (called = true ↔ h.action = some .alert)) →
    (h.body.isLimit = false → called = s.params.alertKinds.getLsbD h.body.kindCode) →
    ((∀ (j : Nat) (a : Handed), j < k → s.recs.handed[j]? = some a →
        a.producer ≠ h.producer ∧ (a.firing = none ∨ a.firing ≠ h.firing)) →
      ∃ u : State, exec (.takeRecord k) s = .next u ∧
        (s.recs.queue.length < 64 →
          u.recs.queue =
              s.recs.queue ++
                [{ seq := s.recs.nextSeq, epoch := s.clock.epoch, alert := called || s.recs.alertMissed,
                   missed := s.recs.missed, body := h.body }] ∧
            u.recs.nextSeq = s.recs.nextSeq + 1#16 ∧ u.recs.missed = 0 ∧ u.recs.alertMissed = false) ∧
        (64 ≤ s.recs.queue.length →
          u.recs.queue = s.recs.queue ∧ u.recs.nextSeq = s.recs.nextSeq ∧
            u.recs.missed = min 255 (s.recs.missed + 1) ∧ u.recs.alertMissed = (s.recs.alertMissed || called)) ∧
        (u.recs.alertLow = true ↔ (∃ r ∈ u.recs.queue, r.alert = true) ∨ u.recs.alertMissed = true) ∧
        u.recs.handed = s.recs.handed.eraseIdx k ∧ { u with recs := s.recs } = s) ∧
    ((∃ (j : Nat) (a : Handed), j < k ∧ s.recs.handed[j]? = some a ∧
        (a.producer = h.producer ∨ (a.firing ≠ none ∧ a.firing = h.firing))) →
      exec (.takeRecord k) s = .next s)

/-- READ_FAULTS and ACK_FAULTS: each check's answer in order; up to three records in their 16-byte encoding, the held records
unchanged; every record through the acknowledged one removed and ALERT_N set from the queue as it then stands (R142,
R143). -/
def Obligations.FaultCommands : Prop :=
  (∀ (i n : Byte) (s : State), s.accepts →
    (63 < i.toNat ∨ n.toNat < 1 ∨ 3 < n.toNat →
      exec (.readFaults [i, n]) s = .next (s.answered .readFaults 2 .range [])) ∧
    (i.toNat ≤ 63 → 1 ≤ n.toNat → n.toNat ≤ 3 → s.recs.queue.length ≤ i.toNat →
      exec (.readFaults [i, n]) s = .next (s.answered .readFaults 2 .none [])) ∧
    (i.toNat ≤ 63 → 1 ≤ n.toNat → n.toNat ≤ 3 → i.toNat < s.recs.queue.length →
      exec (.readFaults [i, n]) s =
        .next
          (s.answered .readFaults 2 .ok
            (((s.recs.queue.drop i.toNat).take n.toNat).flatMap FaultRecord.bytes)))) ∧
  (∀ (args : List Byte) (s : State), s.accepts → args.length = 2 →
    ((∀ r ∈ s.recs.queue, r.seq.toNat ≠ ofBe args) →
      exec (.ackFaults args) s = .next (s.answered .ackFaults 2 .none [])) ∧
    (∀ before r after, s.recs.queue = before ++ r :: after → r.seq.toNat = ofBe args →
      (∀ b ∈ before, b.seq.toNat ≠ ofBe args) →
      ∃ low : Bool, (low = true ↔ (∃ x ∈ after, x.alert = true) ∨ s.recs.alertMissed = true) ∧
        exec (.ackFaults args) s =
          .next
            (State.answered { s with recs := { s.recs with queue := after, alertLow := low } } .ackFaults 2 .ok
              (be1 (before.length + 1) ++ be1 after.length))))

/-- The 16-byte encoding of each kind of fault record: sequence, kind code, flag byte, missed, epoch, and the operand bytes of
the kind with the unused ones 0 (R203, the table of 11.4). -/
def Obligations.RecordEncoding : Prop :=
  ∀ r : FaultRecord, r.bytes.length = 16 ∧
    (∀ p l count cause, r.body = .ceLimit p l count cause →
      r.bytes =
        r.row 0 ((if l.isSome then 64 else 0) + (if cause = .queueFull then 1 else 0))
          (be3 p ++ be3 (l.getD 0) ++ be1 count)) ∧
    (∀ p l count cause, r.body = .ueLimit p l count cause →
      r.bytes =
        r.row 1 ((if l.isSome then 64 else 0) + (if cause = .queueFull then 1 else 0))
          (be3 p ++ be3 (l.getD 0) ++ be1 count)) ∧
    (∀ l line p, r.body = .copyPoison l line p → r.bytes = r.row 2 0 (be3 l ++ be1 line ++ be3 p)) ∧
    (∀ l p sp, r.body = .migDone l p sp → r.bytes = r.row 3 0 (be3 l ++ be3 p ++ be1 sp)) ∧
    (∀ l cause, r.body = .migAborted l cause →
      r.bytes = r.row 4 (if cause = .portReset then 1 else 0) (be3 l ++ [0#8, 0#8, 0#8, 0#8])) ∧
    (∀ l cause, r.body = .migFailed l cause →
      r.bytes = r.row 5 (if cause = .retries then 1 else 0) (be3 l ++ [0#8, 0#8, 0#8, 0#8])) ∧
    (∀ l sp cause, r.body = .targetBad l sp cause →
      r.bytes =
        r.row 6 (if cause = .errorLimit then 2 else if cause = .writeTimeout then 1 else 0)
          (be3 l ++ be1 sp ++ [0#8, 0#8, 0#8])) ∧
    (∀ l, r.body = .noSpare l → r.bytes = r.row 7 0 (be3 l ++ [0#8, 0#8, 0#8, 0#8])) ∧
    (∀ sp cause, r.body = .spareBanned sp cause →
      r.bytes =
        r.row 8 (if cause = .errorLimit then 1 else 0) (be1 sp ++ [0#8, 0#8, 0#8, 0#8, 0#8, 0#8])) ∧
    (∀ origin p, r.body = .respTimeout origin p →
      r.bytes = r.row 9 (if origin = .patrol then 1 else 0) (be3 p ++ [0#8, 0#8, 0#8, 0#8])) ∧
    (∀ p, r.body = .lateResponse p → r.bytes = r.row 10 0 (be3 p ++ [0#8, 0#8, 0#8, 0#8])) ∧
    (∀ slot sp kind, r.body = .fuseDone slot sp kind →
      r.bytes =
        r.row 11 (if kind = .ban then 1 else 0) (be1 slot ++ be1 sp ++ [0#8, 0#8, 0#8, 0#8, 0#8])) ∧
    (∀ slot sp, r.body = .fuseFailed slot sp →
      r.bytes = r.row 12 0 (be1 slot ++ be1 sp ++ [0#8, 0#8, 0#8, 0#8, 0#8])) ∧
    (∀ slot cause, r.body = .fuseSpoiled slot cause →
      r.bytes =
        r.row 13
          (match cause with
            | .torn => 0
            | .check => 1
            | .range => 2
            | .conflict => 3)
          (be1 slot ++ [0#8, 0#8, 0#8, 0#8, 0#8, 0#8])) ∧
    (∀ p, r.body = .suspectFull p → r.bytes = r.row 14 0 (be3 p ++ [0#8, 0#8, 0#8, 0#8]))

/-! ### Fuse unit (R150 to R169) -/

/-- COMMIT_HARD and COMMIT_BAN: each check's answer in order, and the acceptance: programming starts at the append pointer
with the timer at 0, the entry is commit pending, ACCEPTED with slot, kind, L and s; nothing else changes (R160, R161). That
COMMIT_HARD answers BUSY for a waiting L also when it comes together with the start of that L, as its eighth check says and a
row of R160's table does not, is the model's choice (log 33). -/
def Obligations.CommitCommands : Prop :=
  ∀ (b : Byte) (s : State), s.accepts →
    (s.fuse.programmer ≠ .idle →
      exec (.commitHard [b]) s = .next (s.answered .commitHard 1 .busy []) ∧
        exec (.commitBan [b]) s = .next (s.answered .commitBan 1 .busy [])) ∧
    (s.fuse.programmer = .idle → s.fwe = false →
      exec (.commitHard [b]) s = .next (s.answered .commitHard 1 .locked []) ∧
        exec (.commitBan [b]) s = .next (s.answered .commitBan 1 .locked [])) ∧
    (∀ ptr, s.fuse.programmer = .idle → s.fwe = true → s.fuse.appendPtr = some ptr →
      (32 ≤ ptr →
        exec (.commitHard [b]) s = .next (s.answered .commitHard 1 .noSlot []) ∧
          exec (.commitBan [b]) s = .next (s.answered .commitBan 1 .noSlot [])) ∧
      (ptr < 32 → 128 ≤ b.toNat →
        exec (.commitHard [b]) s = .next (s.answered .commitHard 1 .range []) ∧
          exec (.commitBan [b]) s = .next (s.answered .commitBan 1 .range [])) ∧
      (ptr < 32 → b.toNat < 128 →
        ((∀ l p, entryAt s.table b.toNat ≠ .soft l p) →
          exec (.commitHard [b]) s = .next (s.answered .commitHard 1 .state [])) ∧
        (∀ l p, entryAt s.table b.toNat = .soft l p → p = true ∨ l ∈ s.mig.blocks →
          exec (.commitHard [b]) s = .next (s.answered .commitHard 1 .busy [])) ∧
        (∀ l, entryAt s.table b.toNat = .soft l false → l ∉ s.mig.blocks →
          exec (.commitHard [b]) s =
            .next
              (State.answered
                { s with
                  table := s.table.set b.toNat (.soft l true)
                  fuse := { s.fuse with programmer := .programming ptr (.map l b.toNat) 0 0#40 } }
                .commitHard 1 .accepted (be1 ptr ++ [0#8] ++ be3 l ++ [b]))) ∧
        ((∀ l k x p, entryAt s.table b.toNat ≠ .retired l k x p) →
          exec (.commitBan [b]) s = .next (s.answered .commitBan 1 .state [])) ∧
        (∀ l k p, entryAt s.table b.toNat = .retired l k true p →
          exec (.commitBan [b]) s = .next (s.answered .commitBan 1 .already [])) ∧
        (∀ l k p, entryAt s.table b.toNat = .retired l k false p →
          exec (.commitBan [b]) s =
            .next
              (State.answered
                { s with
                  table := s.table.set b.toNat (.retired l k false true)
                  fuse := { s.fuse with programmer := .programming ptr (.ban b.toNat) 0 0#40 } }
                .commitBan 1 .accepted (be1 ptr ++ [1#8, 0#8, 0#8, 0#8] ++ [b])))))

/-- BIT_PROGRAMMED burns one bit of the record, a field bit before the check bits, if the bit holds; a bit that is not being
applied changes nothing: the marker, a bit of the record that is 0, a bit already reported, a check bit while a field bit is
unreported. MARKER_PROGRAMMED and PROGRAMMING_TIMEOUT end PROGRAMMING, the timeout at 190 ms and burning nothing: it is the
ticks lacking to 190, with the decay expiries that fall on them. With the programmer IDLE or VERIFYING none of the three
changes anything (R163). What MARKER_PROGRAMMED burns beside the marker, and that the timeout carries the time on, are the
model's choice (logs 20, 6). -/
def Obligations.ProgrammingSteps : Prop :=
  (∀ s : State, (∀ slot record timer reported, s.fuse.programmer ≠ .programming slot record timer reported) →
    (∀ (bit : Nat) (holds : Bool), exec (.bitProgrammed bit holds) s = .next s) ∧
      (∀ holds : Bool, exec (.markerProgrammed holds) s = .next s) ∧ exec .programmingTimeout s = .next s) ∧
  ∀ (slot timer : Nat) (record : FuseRecord) (reported w : FuseWord) (s : State), s.pwrOk = true →
    s.fuse.programmer = .programming slot record timer reported → s.fuseArray[slot]? = some w →
    (∀ (bit : Nat) (holds : Bool), bit < 39 → record.word.getLsbD bit = true → reported.getLsbD bit = false →
      (8 ≤ bit ∨ ∀ j, 8 ≤ j → j < 39 → record.word.getLsbD j = true → reported.getLsbD j = true) →
      exec (.bitProgrammed bit holds) s =
        .next
          { s with
            fuse :=
              { s.fuse with programmer := .programming slot record timer (reported ||| BitVec.ofNat 40 (2 ^ bit)) }
            fuseArray := if holds then s.fuseArray.set slot (w ||| BitVec.ofNat 40 (2 ^ bit)) else s.fuseArray }) ∧
    (∀ (bit : Nat) (holds : Bool),
      39 ≤ bit ∨ record.word.getLsbD bit = false ∨ reported.getLsbD bit = true ∨
        (bit < 8 ∧ ∃ j, 8 ≤ j ∧ j < 39 ∧ record.word.getLsbD j = true ∧ reported.getLsbD j = false) →
      exec (.bitProgrammed bit holds) s = .next s) ∧
    (∀ holds : Bool, ∃ (u : State) (w2 : FuseWord), exec (.markerProgrammed holds) s = .next u ∧
      u.fuseArray = s.fuseArray.set slot w2 ∧ w2.getLsbD 39 = (w.getLsbD 39 || holds) ∧
      (∀ j < 39, w2.getLsbD j = (w.getLsbD j || (record.word.getLsbD j && !reported.getLsbD j))) ∧
      u.fuse = { s.fuse with programmer := .verifying slot record timer } ∧
      { u with fuseArray := s.fuseArray, fuse := s.fuse } = s) ∧
    (∃ u : State, exec .programmingTimeout s = .next u ∧
      u.fuse = { s.fuse with programmer := .verifying slot record (min 200 (max timer 190)) } ∧
      u.clock.epoch = s.clock.epoch + BitVec.ofNat 32 (190 - timer) ∧
      (s.watch.decayDue = false → s.watch.decayCount + (190 - timer) < s.params.decayPeriod * 100 →
        u.watch = { s.watch with decayCount := s.watch.decayCount + (190 - timer) }) ∧
      (timer < 190 →
        ∀ t : Nat → State, t 0 = s → (∀ j, exec .epochTick (t j) = .next (t (j + 1))) → t (190 - timer) = u) ∧
      u.patrol.block = s.patrol.block ∧ u.patrol.quad = s.patrol.quad ∧
      u.patrol.state.number = s.patrol.state.number ∧
      { u with fuse := s.fuse, clock := s.clock, watch := s.watch, patrol := s.patrol } = s)

/-- END_OF_VERIFYING compares the 40 bits read with the record. On a match the slot is VALID, the entry goes to HARD or is banned,
and FUSE_DONE is handed; on a mismatch the slot is SPOILED with VERIFY, the entry keeps its state, and FUSE_FAILED is
handed. Either way commit pending is cleared, the append pointer rises by one, the programmer is IDLE, and a start event
arises (R164, R165). -/
def Obligations.VerifyEnds : Prop :=
  ∀ (slot timer : Nat) (record : FuseRecord) (w : FuseWord) (old new : Entry) (s : State), s.pwrOk = true →
    s.fuse.programmer = .verifying slot record timer → s.fuseArray[slot]? = some w →
    entryAt s.table record.spare = old →
    (((∃ l p, record.kind = .map ∧ old = .soft l p ∧ new = if w = record.word then .hard l slot else .soft l false) ∨
      (∃ l k p, record.kind = .ban ∧ old = .retired l k false p ∧
        new = if w = record.word then .retired l (some slot) true false else .retired l k false false)) →
    exec .endOfVerifying s =
      .next
        { s with
          table := s.table.set record.spare new
          mig := { s.mig with startEvent := true }
          fuse :=
            { s.fuse with
              images :=
                s.fuse.images.set slot
                  (some { bits := w, kind := if w = record.word then .valid else .spoiled .verify, applied := none })
              appendPtr := s.fuse.appendPtr.map (· + 1)
              programmer := .idle }
          recs :=
            { s.recs with
              handed := s.recs.handed ++
                [{ producer := .fuse
                   body :=
                    if w = record.word then .fuseDone slot record.spare record.kind
                    else .fuseFailed slot record.spare
                   action := none }] } })

/-- READ_MAP and READ_FUSE change nothing but the held result; the payload bytes of each form of entry and of slot image (R20,
R169, R201). -/
def Obligations.ReadMapAndFuse : Prop :=
  (∀ (b : Byte) (s : State), s.accepts →
    (128 ≤ b.toNat → exec (.readMap [b]) s = .next (s.answered .readMap 1 .range [])) ∧
    (∀ (traffic number flags l slot : Nat), b.toNat < 128 →
      (((∃ x ∈ s.arb.outstanding, x.2.block = s.limit + b.toNat) ∧ traffic = 16) ∨
        ((∀ x ∈ s.arb.outstanding, x.2.block ≠ s.limit + b.toNat) ∧ traffic = 0)) →
      ((entryAt s.table b.toNat = .free ∧ number = 0 ∧ flags = 0 ∧ l = 0 ∧ slot = 0) ∨
        (entryAt s.table b.toNat = .reserved l ∧ number = 1 ∧ flags = 1 ∧ slot = 0) ∨
        (∃ p, entryAt s.table b.toNat = .soft l p ∧ number = 2 ∧ flags = 1 + (if p then 8 else 0) ∧ slot = 0) ∨
        (entryAt s.table b.toNat = .hard l slot ∧ number = 3 ∧ flags = 3) ∨
        (∃ x k banned p, entryAt s.table b.toNat = .retired x k banned p ∧ number = 4 ∧ l = x.getD 0 ∧
          slot = k.getD 0 ∧
          flags = (if x.isSome then 1 else 0) + (if k.isSome then 2 else 0) + (if banned then 4 else 0) +
            (if p then 8 else 0))) →
      exec (.readMap [b]) s =
        .next
          (s.answered .readMap 1 .ok
            ([b] ++ be3 (s.limit + b.toNat) ++ be1 number ++ be1 (flags + traffic) ++ be3 l ++ be1 slot)))) ∧
  (∀ (b : Byte) (s : State), s.accepts →
    (31 < b.toNat → exec (.readFuse [b]) s = .next (s.answered .readFuse 1 .range [])) ∧
    (∀ i : SlotImage, b.toNat ≤ 31 → s.fuse.images[b.toNat]? = some (some i) →
      exec (.readFuse [b]) s =
        .next
          (s.answered .readFuse 1 .ok
            ([b] ++ be1 (i.bits.toNat / 4294967296) ++ be4 i.bits.toNat ++
              (match i.kind with
                | .blank => [0#8, 0xFF#8]
                | .valid => [1#8, 0xFF#8]
                | .spoiled (.load .torn) => [2#8, 0#8]
                | .spoiled (.load .check) => [2#8, 1#8]
                | .spoiled (.load .range) => [2#8, 2#8]
                | .spoiled (.load .conflict) => [2#8, 3#8]
                | .spoiled .verify => [2#8, 4#8]) ++
              be1 ((if i.kind = .valid ∧ i.applied ≠ none then 1 else 0) +
                (if i.kind = .valid ∧ i.applied = some true then 2 else 0) +
                (if i.bits.getLsbD 39 then 4 else 0) +
                (if s.fuse.programmer.slot? = some b.toNat then 8 else 0)) ++
              (if i.bits.getLsbD 39 then
                be1 (if i.bits.getLsbD 38 then 1 else 0) ++ be3 (i.bits.toNat / 262144 % 1048576) ++
                  be1 (i.bits.toNat / 2048 % 128)
              else [0#8, 0#8, 0#8, 0#8, 0#8]) ++
              be1 (s.fuse.appendPtr.getD 255) ++
              (match s.fuse.programmer with
                | .idle => [0#8]
                | .programming _ _ _ _ => [1#8]
                | .verifying _ _ _ => [2#8])))))

/-! ### Map unit commands (R21 to R23) -/

/-- MAP_SOFT: each check's answer in order; a FREE spare goes to SOFT for L, and a HARD entry for L is RETIRED in the same change,
keeping L and its slot (R21). -/
def Obligations.MapSoftCommand : Prop :=
  ∀ (args : List Byte) (l k : Nat) (s : State), s.accepts → args.length = 4 → l = ofBe (args.take 3) →
    k = ofBe (args.drop 3) → (s.table.filterMap Entry.serves?).Nodup → s.table.length = 128 →
    (s.limit ≤ l ∨ 128 ≤ k → exec (.mapSoft args) s = .next (s.answered .mapSoft 4 .range [])) ∧
    (l < s.limit → k < 128 → entryAt s.table k ≠ .free →
      exec (.mapSoft args) s = .next (s.answered .mapSoft 4 .state [])) ∧
    (l < s.limit → k < 128 → entryAt s.table k = .free →
      ((∃ x ∈ s.arb.outstanding, x.2.block = s.limit + k) ∨ l ∈ s.mig.blocks) →
      exec (.mapSoft args) s = .next (s.answered .mapSoft 4 .busy [])) ∧
    (l < s.limit → k < 128 → s.mayBeTarget k → l ∉ s.mig.blocks → (∃ p, Entry.soft l p ∈ s.table) →
      exec (.mapSoft args) s = .next (s.answered .mapSoft 4 .state [])) ∧
    (l < s.limit → k < 128 → s.mayBeTarget k → l ∉ s.mig.blocks → (∀ e ∈ s.table, e.serves? ≠ some l) →
      exec (.mapSoft args) s =
        .next
          (State.answered { s with table := s.table.set k (.soft l false) } .mapSoft 4 .ok (be1 k ++ [0xFF#8]))) ∧
    (∀ h slot, l < s.limit → k < 128 → s.mayBeTarget k → l ∉ s.mig.blocks → h < 128 →
      entryAt s.table h = .hard l slot →
      exec (.mapSoft args) s =
        .next
          (State.answered
            { s with table := (s.table.set h (.retired (some l) (some slot) false false)).set k (.soft l false) }
            .mapSoft 4 .ok (be1 k ++ be1 h)))

/-- UNMAP_SOFT and BAN_SPARE: each check's answer in order; a SOFT spare goes to FREE, a FREE one to RETIRED with L absent and
banned false, and nothing else changes (R22, R23). -/
def Obligations.UnmapAndBanCommands : Prop :=
  ∀ (b : Byte) (s : State), s.accepts →
    (128 ≤ b.toNat →
      exec (.unmapSoft [b]) s = .next (s.answered .unmapSoft 1 .range []) ∧
        exec (.banSpare [b]) s = .next (s.answered .banSpare 1 .range [])) ∧
    (b.toNat < 128 →
      ((∀ l p, entryAt s.table b.toNat ≠ .soft l p) →
        exec (.unmapSoft [b]) s = .next (s.answered .unmapSoft 1 .state [])) ∧
      (∀ l p, entryAt s.table b.toNat = .soft l p → p = true ∨ l ∈ s.mig.blocks →
        exec (.unmapSoft [b]) s = .next (s.answered .unmapSoft 1 .busy [])) ∧
      (∀ l, entryAt s.table b.toNat = .soft l false → l ∉ s.mig.blocks →
        exec (.unmapSoft [b]) s =
          .next (State.answered { s with table := s.table.set b.toNat .free } .unmapSoft 1 .ok ([b] ++ be3 l))) ∧
      (∀ l k banned p, entryAt s.table b.toNat = .retired l k banned p →
        exec (.banSpare [b]) s = .next (s.answered .banSpare 1 .already [])) ∧
      (entryAt s.table b.toNat ≠ .free → (∀ l k banned p, entryAt s.table b.toNat ≠ .retired l k banned p) →
        exec (.banSpare [b]) s = .next (s.answered .banSpare 1 .state [])) ∧
      (entryAt s.table b.toNat = .free →
        exec (.banSpare [b]) s =
          .next
            (State.answered { s with table := s.table.set b.toNat (.retired none none false false) } .banSpare 1 .ok
              [b])))

/-! ### Management port (R174 to R192) -/

/-- The end of a frame, given by the level of MSI at each rising edge of MSCK: eight edges a byte, most significant bit first, and
fewer than eight more a partial byte. Of a malformed frame the first test of R177 that applies gives the reason, the check
taken over every whole byte; the held result is FRAME with the reason and the number of whole bytes, up to 255, and nothing
else changes but the filler sent. The levels of a read frame do what RESULT_READ does with the bytes clocked after the third,
and those of a whole command frame what the command's row does, or UNKNOWN_COMMAND's where the code is not assigned; an
unassigned code is answered UNKNOWN, also during LOADING. With MCS_N low since the rise of PWR_OK a rise of MCS_N ends no
frame: whatever was sent, only MCS_N is high again (R172 to R178, R182, R196, R200; that the row MALFORMED_FRAME takes levels
of a well-formed frame for that frame is the model's choice, log 27). -/
def Obligations.FramesEnd : Prop :=
  (∀ (bytes : List Byte) (more : List Bool) (edges : Nat) (msi : BitVec edges) (s : State) (held : Byte → State),
    s.takesFrames → more.length < 8 →
    ((List.range edges).map fun i => msi.getMsbD i) =
      (bytes.flatMap fun b => (List.range 8).map fun i => b.getLsbD (7 - i)) ++ more →
    (∀ reason, held reason =
      { s with
        port :=
          { s.port with
            result :=
              { command := bytes.headD 0#8, result := .frame, payload := [reason] ++ be1 (min 255 bytes.length) }
            mso := .highZ
            sent := some (List.replicate bytes.length 0xFF#8) } }) →
    (bytes.length < 2 → exec (.malformedFrame edges msi) s = .next (held 2#8)) ∧
    (∀ code n rest, bytes = code :: n :: rest → bytes.take 3 ≠ [0x02#8, 0x00#8, 0x2A#8] →
      (12 < n.toNat → exec (.malformedFrame edges msi) s = .next (held 1#8)) ∧
      (n.toNat ≤ 12 → rest.length < n.toNat + 1 → exec (.malformedFrame edges msi) s = .next (held 2#8)) ∧
      (n.toNat ≤ 12 → n.toNat + 1 ≤ rest.length → crc8 bytes ≠ 0#8 →
        exec (.malformedFrame edges msi) s = .next (held 3#8)) ∧
      (n.toNat ≤ 12 → (n.toNat + 1 < rest.length ∨ (n.toNat + 1 = rest.length ∧ more ≠ [])) → crc8 bytes = 0#8 →
        exec (.malformedFrame edges msi) s = .next (held 4#8))) ∧
    (∀ after, bytes = [0x02#8, 0x00#8, 0x2A#8] ++ after →
      exec (.malformedFrame edges msi) s = exec (.resultRead [] after.length) s) ∧
    (∀ (c : Command) (args : List Byte), args.length ≤ 12 → more = [] → bytes = frameBytes c.code args →
      exec (.malformedFrame edges msi) s = exec (c.instr args) s) ∧
    (∀ (code : Byte) (args : List Byte), args.length ≤ 12 → more = [] → (∀ c : Command, c.code ≠ code) →
      bytes = frameBytes code args → exec (.malformedFrame edges msi) s = exec (.unknownCommand code args) s)) ∧
  (∀ (code : Byte) (args : List Byte) (s : State), s.takesFrames →
    code ∉ [0x01#8, 0x02#8, 0x03#8, 0x04#8, 0x10#8, 0x11#8, 0x12#8, 0x13#8, 0x20#8, 0x21#8, 0x22#8, 0x23#8, 0x30#8,
      0x31#8, 0x32#8, 0x40#8, 0x41#8, 0x50#8, 0x51#8, 0x52#8] →
    exec (.unknownCommand code args) s =
      .next
        { s with
          port :=
            { s.port with
              result := { command := code, result := .unknown, payload := [] }
              mso := .highZ
              sent := some (List.replicate (args.length + 3) 0xFF#8) } }) ∧
  (∀ (i : Instr) (s : State), s.pwrOk = true → s.port.mcs = .lowNoFrame →
    ((∃ n msi, i = .malformedFrame n msi) ∨ (∃ code args, i = .unknownCommand code args) ∨
      (∃ args clocked, i = .resultRead args clocked) ∨ ∃ c args ahead, i = Command.instr c args ahead) →
    exec i s = .next { s with port := { s.port with mcs := .high } })

/-- The common checks of an assigned command: during LOADING every command but GET_STATUS, and but a read frame, is answered
NOT_READY; then a wrong argument length is answered RANGE; neither has any other effect (R182, R185, R186). -/
def Obligations.CommonChecks : Prop :=
  ∀ (c : Command) (args : List Byte) (ahead : List StatusUnit) (s : State), s.takesFrames →
    (s.fuse.part = .loading → c ≠ .getStatus → (c = .resultRead → args ≠ []) →
      exec (c.instr args) s = .next (s.answered c args.length .notReady [])) ∧
    (s.fuse.part = .ready ∨ c = .getStatus →
      args.length ∉
        (match c with
          | .getStatus | .resultRead | .abortMigration => [0]
          | .readMigration => [0, 1]
          | .getParam | .readMap | .unmapSoft | .banSpare | .readSuspect | .commitHard | .commitBan | .readFuse => [1]
          | .readFaults | .ackFaults => [2]
          | .setParam | .retire | .cancelRetire | .clearSuspect | .rearm => [3]
          | .mapSoft => [4]) →
      exec (c.instr args ahead) s = .next (s.answered c args.length .range []))

/-- GET_STATUS changes nothing but the held result; its 33 bytes in READY, and in LOADING the power-on values of R188. The items
of one unit are read from one state: the command's, or, for the units in `ahead`, that after an event of a unit taken
together with the command, so that items of different units may straddle the event; that event is the one that waits at
the front of the queue and takes no time, the model's choice (log 31). RESULT_READ sends three filler bytes, the held result
with its check, and filler, and changes no other state (R176, R178, R181, R187, R188, R201). -/
def Obligations.StatusAndResultRead : Prop :=
  (∀ (s u : State) (ahead : List StatusUnit) (src : StatusUnit → State) (ptr : List Byte), s.takesFrames →
    (u = s ∧ (ahead = [] ∨ s.pending = []) ∨
      ∃ c rest, s.pending = c :: rest ∧ (∀ straps p m, c ≠ .powerOn straps p m) ∧ c ≠ .powerLoss ∧
        (∀ n msi, c ≠ .malformedFrame n msi) ∧ (∀ code args, c ≠ .unknownCommand code args) ∧
        (∀ args n, c ≠ .resultRead args n) ∧ (∀ d args units, c ≠ Command.instr d args units) ∧
        exec c s = .next u ∧ u.clock.now = s.clock.now) →
    (∀ x, src x = if x ∈ ahead then u else s) →
    ((∃ n, (src .fuse).fuse.appendPtr = some n ∧ ptr = be1 n) ∨
      ((src .fuse).fuse.appendPtr = none ∧ ptr = [0xFF#8])) →
    ((∀ x, (src x).fuse.part = .ready) →
      exec (.getStatus { args := [], ahead := ahead }) s =
        .next
          (s.answered .getStatus 0 .ok
            ([1#8] ++ be4 (src .watch).clock.epoch.toNat ++
              be1 ((if (src .pin).prstN then 1 else 0) + (if (src .fuse).fwe then 2 else 0) +
                (if (src .records).recs.alertLow then 4 else 0)) ++
              be1 ((src .map).table.countP fun e => e.number == 0) ++
              be1 ((src .map).table.countP fun e => e.number == 1) ++
              be1 ((src .map).table.countP fun e => e.number == 2) ++
              be1 ((src .map).table.countP fun e => e.number == 3) ++
              be1 ((src .map).table.countP fun e => e.number == 4) ++
              be1 ((src .map).table.countP fun e => e.banned) ++
              (match (src .migration).mig.context with
                | .idle => [0#8, 0#8, 0#8, 0#8, 0#8]
                | .copying m p _ => [1#8] ++ be3 m.req.l ++ be1 p
                | .finishing m => [2#8] ++ be3 m.req.l ++ [64#8]) ++
              be1 (src .migration).mig.occupancy ++ be1 (src .records).recs.queue.length ++
              (match (src .records).recs.queue with
                | [] => [0#8, 0#8]
                | r :: _ => be2 r.seq.toNat) ++
              be2 (src .records).recs.nextSeq.toNat ++ be1 (src .records).recs.missed ++
              be1 ((if (src .records).recs.alertMissed then 1 else 0) +
                (if (src .watch).watch.fullReported then 2 else 0)) ++
              be1 (src .fuse).fuse.programmer.number ++ ptr ++
              be1 ((src .watch).watch.suspects.countP Option.isSome) ++
              be1 ((src .request).req.slots.countP Option.isSome) ++
              be1 ((src .request).req.slots.countP fun x => x.any fun y => y.state == .orphan) ++
              be2 (src .arbiter).arb.outstanding.length ++ be1 (src .patrol).patrol.state.number))) ∧
    ((∀ x, (src x).fuse.part = .loading) →
      exec (.getStatus { args := [], ahead := ahead }) s =
        .next
          (s.answered .getStatus 0 .ok
            ([0#8] ++ be4 (src .watch).clock.epoch.toNat ++
              be1 ((if (src .pin).prstN then 1 else 0) + (if (src .fuse).fwe then 2 else 0)) ++
              [128#8] ++ List.replicate 18 0#8 ++ be1 (src .fuse).fuse.programmer.number ++ ptr ++
              List.replicate 6 0#8)))) ∧
  (∀ (ahead : List StatusUnit) (s : State), s.takesFrames →
    ∃ payload : List Byte, payload.length = 33 ∧
      exec (.getStatus { args := [], ahead := ahead }) s = .next (s.answered .getStatus 0 .ok payload)) ∧
  (∀ (clocked : Nat) (bytes : List Byte) (s : State), s.takesFrames →
    bytes =
      s.port.result.command :: s.port.result.result.byte :: BitVec.ofNat 8 s.port.result.payload.length ::
        s.port.result.payload →
    exec (.resultRead [] clocked) s =
      .next
        { s with
          port :=
            { s.port with
              mso := .highZ
              sent :=
                some
                  ([0xFF#8, 0xFF#8, 0xFF#8] ++ (bytes ++ [crc8 bytes]).take clocked ++
                    List.replicate (clocked - (bytes.length + 1)) 0xFF#8) } })

/-- GET_PARAM and SET_PARAM: RANGE for an identifier of no parameter and for a value out of range; else the value, or the write
of that one parameter, with the value before and after. A DECAY_PERIOD write sets the decay count to 0, a PATROL_GAP write
acts on the patrol unit by its state, and no other write changes a unit (R98, R132, R191, R192, R193). That a decay expiry
still due is taken before a DECAY_PERIOD write is the model's (log 21). -/
def Obligations.ParamCommands : Prop :=
  (∀ (id : Byte) (s : State), s.accepts →
    (Param.ofId id.toNat = none → exec (.getParam [id]) s = .next (s.answered .getParam 1 .range [])) ∧
    (∀ p, Param.ofId id.toNat = some p →
      exec (.getParam [id]) s = .next (s.answered .getParam 1 .ok ([id] ++ be2 (s.params.value p))))) ∧
  (∀ (id b1 b0 : Byte) (v : Nat) (s : State), s.accepts → v = ofBe [b1, b0] →
    (Param.ofId id.toNat = none → exec (.setParam [id, b1, b0]) s = .next (s.answered .setParam 3 .range [])) ∧
    (∀ p, Param.ofId id.toNat = some p → p.inRange v = false →
      exec (.setParam [id, b1, b0]) s = .next (s.answered .setParam 3 .range [])) ∧
    (∀ p, Param.ofId id.toNat = some p → p.inRange v = true →
      (p ≠ .decayPeriod → p ≠ .patrolGap →
        exec (.setParam [id, b1, b0]) s =
          .next
            (State.answered { s with port := { s.port with params := s.params.write p v } } .setParam 3 .ok
              ([id] ++ be2 (s.params.value p) ++ [b1, b0]))) ∧
      (p = .decayPeriod → s.watch.decayDue = false →
        exec (.setParam [id, b1, b0]) s =
          .next
            (State.answered
              { s with
                port := { s.port with params := s.params.write p v }
                watch := { s.watch with decayCount := 0 } }
              .setParam 3 .ok ([id] ++ be2 (s.params.value p) ++ [b1, b0]))) ∧
      (p = .decayPeriod → s.watch.decayDue = true → ∀ u : State, exec .decayExpiry s = .next u →
        exec (.setParam [id, b1, b0]) s = exec (.setParam [id, b1, b0]) u) ∧
      (p = .patrolGap →
        exec (.setParam [id, b1, b0]) s =
          .next
            (State.answered
              { s with
                port := { s.port with params := s.params.write p v }
                patrol :=
                  { s.patrol with
                    state :=
                      (match s.patrol.state with
                        | .off => if v ≠ 0 ∧ s.params.patrolGap = 0 ∧ s.prstN = true then .gap 0 else .off
                        | .gap _ => if v = 0 then .off else .gap 0
                        | .seeking => if v = 0 then .off else .seeking
                        | .offered b q => if v = 0 then .off else .offered b q
                        | .reading b q t d => .reading b q t d) } }
              .setParam 3 .ok ([id] ++ be2 (s.params.value p) ++ [b1, b0])))))

/-- The identifiers of the parameters and the two-byte values in range for each (R190, R202); a write of a value in range gives
that parameter that value and leaves the others. -/
def Obligations.ParameterRanges : Prop :=
  [1, 2, 3, 4, 5, 6, 7, 8, 9, 10, 11].map Param.ofId =
      [some .ceLimit, some .ueLimit, some .ceAction, some .ueAction, some .rearmMode, some .decayPeriod,
        some .patrolGap, some .bgShare, some .respTimeout, some .retryLimit, some .alertKinds] ∧
    (∀ id, id = 0 ∨ 11 < id → Param.ofId id = none) ∧
    (∀ v < 65536,
      (Param.ceLimit.inRange v = true ↔ 1 ≤ v ∧ v ≤ 255) ∧ (Param.ueLimit.inRange v = true ↔ 1 ≤ v ∧ v ≤ 255) ∧
      (Param.ceAction.inRange v = true ↔ v ≤ 3) ∧ (Param.ueAction.inRange v = true ↔ v ≤ 3) ∧
      (Param.rearmMode.inRange v = true ↔ v ≤ 1) ∧ Param.decayPeriod.inRange v = true ∧
      Param.patrolGap.inRange v = true ∧ (Param.bgShare.inRange v = true ↔ 1 ≤ v ∧ v ≤ 64) ∧
      (Param.respTimeout.inRange v = true ↔ 16 ≤ v) ∧ (Param.retryLimit.inRange v = true ↔ v ≤ 3) ∧
      (Param.alertKinds.inRange v = true ↔ v.testBit 15 = false)) ∧
    (∀ (ps : Params) (p q : Param) (v : Nat), p.inRange v = true →
      (ps.write p v).value p = v ∧ (q ≠ p → (ps.write p v).value q = ps.value q))

/-- A command answered with any code but OK and ACCEPTED changes nothing but the held result, whose payload is then empty; only
the two commits answer ACCEPTED; the reading commands change nothing else whatever they answer; a payload has at most 48
bytes (R179, R186, 9.7). -/
def Obligations.RefusalChangesNothing : Prop :=
  ∀ (c : Command) (args : List Byte) (ahead : List StatusUnit) (s : State), s.takesFrames →
    (c = .resultRead → args ≠ []) →
    ∃ (r : ResultCode) (payload : List Byte) (u : State),
      exec (c.instr args ahead) s = .next (u.answered c args.length r payload) ∧ payload.length ≤ 48 ∧
        (r ≠ .ok → r ≠ .accepted → u = s ∧ payload = []) ∧
        (r = .accepted → c = .commitHard ∨ c = .commitBan) ∧
        (c ∈ [.getStatus, .getParam, .readMap, .readMigration, .readSuspect, .readFaults, .readFuse] → u = s)

/-! ### Encodings (R150, R151, R174 to R177, R199) -/

/-- Every command frame is read as the command it carries, and a read frame whatever follows its opening; with a partial byte
after it a command frame is LONG, and every frame cut short is SHORT; the MSI levels of bytes, most significant bit first,
and fewer than eight more are received as those bytes, with a partial byte if there are more (R172, R174 to R177). -/
def Obligations.FrameRoundTrip : Prop :=
  ∀ (code : Byte) (args : List Byte), args.length ≤ 12 →
    (¬(code = 0x02#8 ∧ args = []) →
      frameOf (frameBytes code args) false = .command code args ∧
        frameOf (frameBytes code args) true = .malformed .long) ∧
    (∀ (more : List Byte) (p : Bool), frameOf (frameBytes 0x02#8 [] ++ more) p = .readFrame) ∧
    (∀ (n : Nat) (p : Bool), n < (frameBytes code args).length →
      frameOf ((frameBytes code args).take n) p = .malformed .short) ∧
    (∀ (bytes : List Byte) (more : List Bool), more.length < 8 →
      frameOfBits ((bytes.flatMap fun b => (List.range 8).map fun i => b.getLsbD (7 - i)) ++ more) =
        frameOf bytes (decide (more ≠ [])))

/-- Every record within its field widths is classified VALID and read back as itself; every VALID slot holds exactly the bits of
its record; a record whose marker is not programmed is SPOILED with TORN (R150, R151, R167, R199). -/
def Obligations.FuseRecordRoundTrip : Prop :=
  (∀ l sp, l < 1048576 → sp < 128 →
    classifySlot (FuseRecord.map l sp).word = .valid ∧ fuseRecordOf (FuseRecord.map l sp).word = .map l sp) ∧
  (∀ sp < 128, classifySlot (FuseRecord.ban sp).word = .valid ∧ fuseRecordOf (FuseRecord.ban sp).word = .ban sp) ∧
  (∀ w : FuseWord, classifySlot w = .valid → (fuseRecordOf w).word = w) ∧
  (∀ r : FuseRecord, classifySlot (r.word &&& 0x7FFFFFFFFF#40) = .spoiled (.load .torn))

/-! ### Laws every step keeps -/

/-- Every law holds in the reset state. -/
def Obligations.LawsHoldAtReset : Prop :=
  AlertLaw State.reset ∧ QueueLaw State.reset ∧ SuspectLaw State.reset ∧ DecayLaw State.reset ∧ TagLaw State.reset ∧
    LinkLaw State.reset ∧ CreditLaw State.reset ∧ TrackerLaw State.reset ∧ RetireLaw State.reset ∧ MapLaw State.reset ∧
    FuseLaw State.reset ∧ PatrolLaw State.reset ∧ ParamsLaw State.reset

/-- Every step keeps the laws of record unit and suspect table: ALERT_N low exactly while an alerting record is held or has been
dropped; at most 64 records, with consecutive sequence numbers up to the next one less one; 32 suspect positions, no block
named twice, counts up to 255; the decay timer count below the decay period (R98, R99, R135, R145). -/
def Obligations.RecordAndSuspectLawsKept : Prop :=
  (∀ s t : State, AlertLaw s → step s = .next t → AlertLaw t) ∧
  (∀ s t : State, QueueLaw s → step s = .next t → QueueLaw t) ∧
  (∀ s t : State, SuspectLaw s → step s = .next t → SuspectLaw t) ∧
  (∀ s t : State, DecayLaw s → step s = .next t → DecayLaw t)

/-- Every step keeps the arbiter's laws: no tag has two entries, the credits stay within 128 and the wait count within 64; the
downstream link is released exactly while the part is READY with PRST_N high (R51, R52, R55, R63, R64). -/
def Obligations.ArbiterLawsKept : Prop :=
  (∀ s t : State, TagLaw s → step s = .next t → TagLaw t) ∧ (∀ s t : State, LinkLaw s → step s = .next t → LinkLaw t)

/-- Every step keeps the request unit's laws: credits granted and not yet seen used plus slots in use are 64 while the part is
READY with PRST_N high, and both are 0 outside it; relay queue, hold buffer and outstanding downstream table agree with
the states of the slots (R24, R25, R30, R32, R46, R47, R48, R52). -/
def Obligations.RequestLawsKept : Prop :=
  (∀ s t : State, CreditLaw s → step s = .next t → CreditLaw t) ∧
  (∀ s t : State, TrackerLaw s → step s = .next t → TrackerLaw t)

/-- Every step keeps the laws of retire queue, remap table and migration context: no block queued twice and at most 8 in all; each
logical block served by at most one spare; one RESERVED entry exactly while a migration is active, its target; the
migration's source the translation of its block (R5, R10, R65, R66, R70). -/
def Obligations.MapLawsKept : Prop :=
  (∀ s t : State, RetireLaw s → step s = .next t → RetireLaw t) ∧ (∀ s t : State, MapLaw s → step s = .next t → MapLaw t)

/-- Every step keeps the laws of fuse unit, patrol unit and parameters: commit pending only for the record being programmed;
PROGRAMMING over by 190 ms; the patrol fields agree with the patrol state and the cursor; every parameter in its range (R121,
R149, R152, R162, R163, R189). -/
def Obligations.FusePatrolParamsLawsKept : Prop :=
  (∀ s t : State, FuseLaw s → step s = .next t → FuseLaw t) ∧
  (∀ s t : State, PatrolLaw s → step s = .next t → PatrolLaw t) ∧
  (∀ s t : State, ParamsLaw s → step s = .next t → ParamsLaw t)
end

