-- ==== Sys2Proof/Laws/Bytes.lean ====
section
/-! SUPPORT. The bytes of values, and the CRC-8: a byte string with its check appended has check 0 (R175). -/

namespace Sys2Proof.Machine

@[simp] theorem length_be1 (n : Nat) : (be1 n).length = 1 := rfl
@[simp] theorem length_be2 (n : Nat) : (be2 n).length = 2 := rfl
@[simp] theorem length_be3 (n : Nat) : (be3 n).length = 3 := rfl
@[simp] theorem length_be4 (n : Nat) : (be4 n).length = 4 := rfl

/-- One byte reads back as its value. -/
theorem ofBe_be1 {n : Nat} (h : n < 256) : ofBe (be1 n) = n := by
  simp [ofBe, be1, byteOf, Nat.mod_eq_of_lt h]

/-- Two bytes read back as their value. -/
theorem ofBe_be2 {n : Nat} (h : n < 65536) : ofBe (be2 n) = n := by
  simp [ofBe, be2, byteOf]
  omega

/-- Three bytes read back as their value. -/
theorem ofBe_be3 {n : Nat} (h : n < 16777216) : ofBe (be3 n) = n := by
  simp [ofBe, be3, byteOf]
  omega

/-- One argument byte is the number it spells (R183). -/
@[simp] theorem ofBe_singleton (b : Byte) : ofBe [b] = b.toNat := by simp [ofBe]

/-- Eight MSI levels that carry a byte are received as that byte (R172). -/
@[simp] theorem byteOfBits_bitsOfByte (b : Byte) : byteOfBits (bitsOfByte b) = b := by
  revert b
  decide

/-- The levels that carry a byte come before those of the rest. -/
@[simp] theorem bytesOfBits_bitsOfByte_append (b : Byte) (rest : List Bool) :
    bytesOfBits (bitsOfByte b ++ rest) = b :: bytesOfBits rest :=
  congrArg (· :: bytesOfBits rest) (byteOfBits_bitsOfByte b)

/-- Bytes sent are the bytes received, whatever fewer than eight levels follow them (R172). -/
theorem bytesOfBits_bitsOf_append (bytes : List Byte) {more : List Bool} (h : more.length < 8) :
    bytesOfBits (bitsOf bytes ++ more) = bytes := by
  induction bytes with
  | nil =>
    unfold bytesOfBits
    split
    · rename_i he
      have := congrArg List.length he
      simp [bitsOf] at this
      omega
    · rfl
  | cons b bytes ih =>
    simpa [bitsOf] using ih

/-- The number of levels that carry a string of bytes. -/
@[simp] theorem length_bitsOf (bytes : List Byte) : (bitsOf bytes).length = 8 * bytes.length := by
  induction bytes with
  | nil => rfl
  | cons b bytes ih =>
    simp only [bitsOf, List.flatMap_cons, List.length_append] at ih ⊢
    rw [ih, show (bitsOfByte b).length = 8 from rfl, List.length_cons]
    omega

/-- Whole bytes end in no partial byte (R172). -/
@[simp] theorem endsPartial_bitsOf (bytes : List Byte) : endsPartial (bitsOf bytes) = false := by
  simp [endsPartial]

/-- A frame of whole bytes is what its bytes make it. -/
@[simp] theorem frameOfBits_bitsOf (bytes : List Byte) : frameOfBits (bitsOf bytes) = frameOf bytes false := by
  have h := bytesOfBits_bitsOf_append bytes (more := []) (by decide)
  rw [List.append_nil] at h
  rw [frameOfBits, h, endsPartial_bitsOf]

/-- The CRC-8 of a byte string with one more byte. -/
theorem crc8_append_singleton (bs : List Byte) (b : Byte) : crc8 (bs ++ [b]) = crcShift (crc8 bs ^^^ b) := by
  simp [crc8]

/-- A byte string with its check appended has check 0 (R175). -/
theorem crc8_append_check (bs : List Byte) : crc8 (bs ++ [crc8 bs]) = 0#8 := by
  rw [crc8_append_singleton, BitVec.xor_self]
  decide

/-- The CRC-8 step loses nothing: it is 0 only of 0. -/
theorem crcShift_eq_zero (c : Byte) : crcShift c = 0#8 ↔ c = 0#8 := by
  revert c
  decide

/-- A byte string ends in an accepted check exactly when its last byte is the check of the bytes before it (R175). -/
theorem crc8_append_eq_zero (bs : List Byte) (b : Byte) : crc8 (bs ++ [b]) = 0#8 ↔ b = crc8 bs := by
  rw [crc8_append_singleton, crcShift_eq_zero, BitVec.xor_eq_zero_iff]
  exact eq_comm

/-- The number of bytes of a command frame (R174). -/
@[simp] theorem length_frameBytes (code : Byte) (args : List Byte) :
    (frameBytes code args).length = args.length + 3 := by
  simp [frameBytes]

/-- The code of a command is assigned to that command (11.3). -/
@[simp] theorem Command.ofCode_code (c : Command) : Command.ofCode c.code = some c := by
  cases c <;> decide

end Sys2Proof.Machine
end

