-- ==== Sys2Proof/Laws/State.lean ====
section
/-! SUPPORT. One lemma for each field of State under each named update, all by `rfl`, so that no proof unfolds a record
update. -/

namespace Sys2Proof.Machine

variable (s : State)

/-! ### setEntry -/

@[simp] theorem State.setEntry_pwrOk (k : Nat) (e : Entry) : (s.setEntry k e).pwrOk = s.pwrOk := rfl
@[simp] theorem State.setEntry_prstN (k : Nat) (e : Entry) : (s.setEntry k e).prstN = s.prstN := rfl
@[simp] theorem State.setEntry_fwe (k : Nat) (e : Entry) : (s.setEntry k e).fwe = s.fwe := rfl
@[simp] theorem State.setEntry_fuseArray (k : Nat) (e : Entry) : (s.setEntry k e).fuseArray = s.fuseArray := rfl
@[simp] theorem State.setEntry_clock (k : Nat) (e : Entry) : (s.setEntry k e).clock = s.clock := rfl
@[simp] theorem State.setEntry_table (k : Nat) (e : Entry) : (s.setEntry k e).table = s.table.set k e := rfl
@[simp] theorem State.setEntry_req (k : Nat) (e : Entry) : (s.setEntry k e).req = s.req := rfl
@[simp] theorem State.setEntry_arb (k : Nat) (e : Entry) : (s.setEntry k e).arb = s.arb := rfl
@[simp] theorem State.setEntry_mig (k : Nat) (e : Entry) : (s.setEntry k e).mig = s.mig := rfl
@[simp] theorem State.setEntry_watch (k : Nat) (e : Entry) : (s.setEntry k e).watch = s.watch := rfl
@[simp] theorem State.setEntry_patrol (k : Nat) (e : Entry) : (s.setEntry k e).patrol = s.patrol := rfl
@[simp] theorem State.setEntry_recs (k : Nat) (e : Entry) : (s.setEntry k e).recs = s.recs := rfl
@[simp] theorem State.setEntry_fuse (k : Nat) (e : Entry) : (s.setEntry k e).fuse = s.fuse := rfl
@[simp] theorem State.setEntry_port (k : Nat) (e : Entry) : (s.setEntry k e).port = s.port := rfl
@[simp] theorem State.setEntry_upSent (k : Nat) (e : Entry) : (s.setEntry k e).upSent = s.upSent := rfl
@[simp] theorem State.setEntry_downSent (k : Nat) (e : Entry) : (s.setEntry k e).downSent = s.downSent := rfl
@[simp] theorem State.setEntry_pending (k : Nat) (e : Entry) : (s.setEntry k e).pending = s.pending := rfl

/-! ### sendUp -/

@[simp] theorem State.sendUp_pwrOk (m : UpMessage) : (s.sendUp m).pwrOk = s.pwrOk := rfl
@[simp] theorem State.sendUp_prstN (m : UpMessage) : (s.sendUp m).prstN = s.prstN := rfl
@[simp] theorem State.sendUp_fwe (m : UpMessage) : (s.sendUp m).fwe = s.fwe := rfl
@[simp] theorem State.sendUp_fuseArray (m : UpMessage) : (s.sendUp m).fuseArray = s.fuseArray := rfl
@[simp] theorem State.sendUp_clock (m : UpMessage) : (s.sendUp m).clock = s.clock := rfl
@[simp] theorem State.sendUp_table (m : UpMessage) : (s.sendUp m).table = s.table := rfl
@[simp] theorem State.sendUp_req (m : UpMessage) : (s.sendUp m).req = s.req := rfl
@[simp] theorem State.sendUp_arb (m : UpMessage) : (s.sendUp m).arb = s.arb := rfl
@[simp] theorem State.sendUp_mig (m : UpMessage) : (s.sendUp m).mig = s.mig := rfl
@[simp] theorem State.sendUp_watch (m : UpMessage) : (s.sendUp m).watch = s.watch := rfl
@[simp] theorem State.sendUp_patrol (m : UpMessage) : (s.sendUp m).patrol = s.patrol := rfl
@[simp] theorem State.sendUp_recs (m : UpMessage) : (s.sendUp m).recs = s.recs := rfl
@[simp] theorem State.sendUp_fuse (m : UpMessage) : (s.sendUp m).fuse = s.fuse := rfl
@[simp] theorem State.sendUp_port (m : UpMessage) : (s.sendUp m).port = s.port := rfl
@[simp] theorem State.sendUp_upSent (m : UpMessage) : (s.sendUp m).upSent = s.upSent ++ [m] := rfl
@[simp] theorem State.sendUp_downSent (m : UpMessage) : (s.sendUp m).downSent = s.downSent := rfl
@[simp] theorem State.sendUp_pending (m : UpMessage) : (s.sendUp m).pending = s.pending := rfl

/-! ### sendDown -/

@[simp] theorem State.sendDown_pwrOk (m : DownMessage) : (s.sendDown m).pwrOk = s.pwrOk := rfl
@[simp] theorem State.sendDown_prstN (m : DownMessage) : (s.sendDown m).prstN = s.prstN := rfl
@[simp] theorem State.sendDown_fwe (m : DownMessage) : (s.sendDown m).fwe = s.fwe := rfl
@[simp] theorem State.sendDown_fuseArray (m : DownMessage) : (s.sendDown m).fuseArray = s.fuseArray := rfl
@[simp] theorem State.sendDown_clock (m : DownMessage) : (s.sendDown m).clock = s.clock := rfl
@[simp] theorem State.sendDown_table (m : DownMessage) : (s.sendDown m).table = s.table := rfl
@[simp] theorem State.sendDown_req (m : DownMessage) : (s.sendDown m).req = s.req := rfl
@[simp] theorem State.sendDown_arb (m : DownMessage) : (s.sendDown m).arb = s.arb := rfl
@[simp] theorem State.sendDown_mig (m : DownMessage) : (s.sendDown m).mig = s.mig := rfl
@[simp] theorem State.sendDown_watch (m : DownMessage) : (s.sendDown m).watch = s.watch := rfl
@[simp] theorem State.sendDown_patrol (m : DownMessage) : (s.sendDown m).patrol = s.patrol := rfl
@[simp] theorem State.sendDown_recs (m : DownMessage) : (s.sendDown m).recs = s.recs := rfl
@[simp] theorem State.sendDown_fuse (m : DownMessage) : (s.sendDown m).fuse = s.fuse := rfl
@[simp] theorem State.sendDown_port (m : DownMessage) : (s.sendDown m).port = s.port := rfl
@[simp] theorem State.sendDown_upSent (m : DownMessage) : (s.sendDown m).upSent = s.upSent := rfl
@[simp] theorem State.sendDown_downSent (m : DownMessage) : (s.sendDown m).downSent = s.downSent ++ [m] := rfl
@[simp] theorem State.sendDown_pending (m : DownMessage) : (s.sendDown m).pending = s.pending := rfl

/-! ### hand -/

@[simp] theorem State.hand_pwrOk (p : Producer) (b : RecordBody) (a : Option Action) (f : Option Nat) :
    (s.hand p b a f).pwrOk = s.pwrOk := rfl
@[simp] theorem State.hand_prstN (p : Producer) (b : RecordBody) (a : Option Action) (f : Option Nat) :
    (s.hand p b a f).prstN = s.prstN := rfl
@[simp] theorem State.hand_fwe (p : Producer) (b : RecordBody) (a : Option Action) (f : Option Nat) :
    (s.hand p b a f).fwe = s.fwe := rfl
@[simp] theorem State.hand_fuseArray (p : Producer) (b : RecordBody) (a : Option Action) (f : Option Nat) :
    (s.hand p b a f).fuseArray = s.fuseArray := rfl
@[simp] theorem State.hand_clock (p : Producer) (b : RecordBody) (a : Option Action) (f : Option Nat) :
    (s.hand p b a f).clock = s.clock := rfl
@[simp] theorem State.hand_table (p : Producer) (b : RecordBody) (a : Option Action) (f : Option Nat) :
    (s.hand p b a f).table = s.table := rfl
@[simp] theorem State.hand_req (p : Producer) (b : RecordBody) (a : Option Action) (f : Option Nat) :
    (s.hand p b a f).req = s.req := rfl
@[simp] theorem State.hand_arb (p : Producer) (b : RecordBody) (a : Option Action) (f : Option Nat) :
    (s.hand p b a f).arb = s.arb := rfl
@[simp] theorem State.hand_mig (p : Producer) (b : RecordBody) (a : Option Action) (f : Option Nat) :
    (s.hand p b a f).mig = s.mig := rfl
@[simp] theorem State.hand_watch (p : Producer) (b : RecordBody) (a : Option Action) (f : Option Nat) :
    (s.hand p b a f).watch = s.watch := rfl
@[simp] theorem State.hand_patrol (p : Producer) (b : RecordBody) (a : Option Action) (f : Option Nat) :
    (s.hand p b a f).patrol = s.patrol := rfl
@[simp] theorem State.hand_recs (p : Producer) (b : RecordBody) (a : Option Action) (f : Option Nat) :
    (s.hand p b a f).recs =
      { s.recs with handed := s.recs.handed ++ [{ producer := p, body := b, action := a, firing := f }] } := rfl
@[simp] theorem State.hand_fuse (p : Producer) (b : RecordBody) (a : Option Action) (f : Option Nat) :
    (s.hand p b a f).fuse = s.fuse := rfl
@[simp] theorem State.hand_port (p : Producer) (b : RecordBody) (a : Option Action) (f : Option Nat) :
    (s.hand p b a f).port = s.port := rfl
@[simp] theorem State.hand_upSent (p : Producer) (b : RecordBody) (a : Option Action) (f : Option Nat) :
    (s.hand p b a f).upSent = s.upSent := rfl
@[simp] theorem State.hand_downSent (p : Producer) (b : RecordBody) (a : Option Action) (f : Option Nat) :
    (s.hand p b a f).downSent = s.downSent := rfl
@[simp] theorem State.hand_pending (p : Producer) (b : RecordBody) (a : Option Action) (f : Option Nat) :
    (s.hand p b a f).pending = s.pending := rfl

/-! ### handFiring -/

@[simp] theorem State.handFiring_pwrOk (c : LimitClass) (e : Suspect) : (s.handFiring c e).pwrOk = s.pwrOk := rfl
@[simp] theorem State.handFiring_prstN (c : LimitClass) (e : Suspect) : (s.handFiring c e).prstN = s.prstN := rfl
@[simp] theorem State.handFiring_fwe (c : LimitClass) (e : Suspect) : (s.handFiring c e).fwe = s.fwe := rfl
@[simp] theorem State.handFiring_fuseArray (c : LimitClass) (e : Suspect) :
    (s.handFiring c e).fuseArray = s.fuseArray := rfl
@[simp] theorem State.handFiring_clock (c : LimitClass) (e : Suspect) : (s.handFiring c e).clock = s.clock := rfl
@[simp] theorem State.handFiring_table (c : LimitClass) (e : Suspect) : (s.handFiring c e).table = s.table := rfl
@[simp] theorem State.handFiring_req (c : LimitClass) (e : Suspect) : (s.handFiring c e).req = s.req := rfl
@[simp] theorem State.handFiring_arb (c : LimitClass) (e : Suspect) : (s.handFiring c e).arb = s.arb := rfl
@[simp] theorem State.handFiring_mig (c : LimitClass) (e : Suspect) : (s.handFiring c e).mig = s.mig := rfl
@[simp] theorem State.handFiring_watch (c : LimitClass) (e : Suspect) :
    (s.handFiring c e).watch = { s.watch with firings := s.watch.firings + 1 } := rfl
@[simp] theorem State.handFiring_patrol (c : LimitClass) (e : Suspect) : (s.handFiring c e).patrol = s.patrol := rfl
@[simp] theorem State.handFiring_recs (c : LimitClass) (e : Suspect) :
    (s.handFiring c e).recs =
      { s.recs with
        handed := s.recs.handed ++
          [{ producer := .watch, body := limitRecord c e.block none (e.count c) .none, action := some .retire,
             firing := some s.watch.firings }] } := rfl
@[simp] theorem State.handFiring_fuse (c : LimitClass) (e : Suspect) : (s.handFiring c e).fuse = s.fuse := rfl
@[simp] theorem State.handFiring_port (c : LimitClass) (e : Suspect) : (s.handFiring c e).port = s.port := rfl
@[simp] theorem State.handFiring_upSent (c : LimitClass) (e : Suspect) : (s.handFiring c e).upSent = s.upSent := rfl
@[simp] theorem State.handFiring_downSent (c : LimitClass) (e : Suspect) :
    (s.handFiring c e).downSent = s.downSent := rfl
@[simp] theorem State.handFiring_pending (c : LimitClass) (e : Suspect) :
    (s.handFiring c e).pending = s.pending := rfl

/-! ### setSlot -/

@[simp] theorem State.setSlot_pwrOk (k : Nat) (x : Option Slot) : (s.setSlot k x).pwrOk = s.pwrOk := rfl
@[simp] theorem State.setSlot_prstN (k : Nat) (x : Option Slot) : (s.setSlot k x).prstN = s.prstN := rfl
@[simp] theorem State.setSlot_fwe (k : Nat) (x : Option Slot) : (s.setSlot k x).fwe = s.fwe := rfl
@[simp] theorem State.setSlot_fuseArray (k : Nat) (x : Option Slot) : (s.setSlot k x).fuseArray = s.fuseArray := rfl
@[simp] theorem State.setSlot_clock (k : Nat) (x : Option Slot) : (s.setSlot k x).clock = s.clock := rfl
@[simp] theorem State.setSlot_table (k : Nat) (x : Option Slot) : (s.setSlot k x).table = s.table := rfl
@[simp] theorem State.setSlot_req (k : Nat) (x : Option Slot) :
    (s.setSlot k x).req = { s.req with slots := s.req.slots.set k x } := rfl
@[simp] theorem State.setSlot_arb (k : Nat) (x : Option Slot) : (s.setSlot k x).arb = s.arb := rfl
@[simp] theorem State.setSlot_mig (k : Nat) (x : Option Slot) : (s.setSlot k x).mig = s.mig := rfl
@[simp] theorem State.setSlot_watch (k : Nat) (x : Option Slot) : (s.setSlot k x).watch = s.watch := rfl
@[simp] theorem State.setSlot_patrol (k : Nat) (x : Option Slot) : (s.setSlot k x).patrol = s.patrol := rfl
@[simp] theorem State.setSlot_recs (k : Nat) (x : Option Slot) : (s.setSlot k x).recs = s.recs := rfl
@[simp] theorem State.setSlot_fuse (k : Nat) (x : Option Slot) : (s.setSlot k x).fuse = s.fuse := rfl
@[simp] theorem State.setSlot_port (k : Nat) (x : Option Slot) : (s.setSlot k x).port = s.port := rfl
@[simp] theorem State.setSlot_upSent (k : Nat) (x : Option Slot) : (s.setSlot k x).upSent = s.upSent := rfl
@[simp] theorem State.setSlot_downSent (k : Nat) (x : Option Slot) : (s.setSlot k x).downSent = s.downSent := rfl
@[simp] theorem State.setSlot_pending (k : Nat) (x : Option Slot) : (s.setSlot k x).pending = s.pending := rfl

/-! ### setMig -/

@[simp] theorem State.setMig_pwrOk (m : MigrationUnit) : (s.setMig m).pwrOk = s.pwrOk := rfl
@[simp] theorem State.setMig_prstN (m : MigrationUnit) : (s.setMig m).prstN = s.prstN := rfl
@[simp] theorem State.setMig_fwe (m : MigrationUnit) : (s.setMig m).fwe = s.fwe := rfl
@[simp] theorem State.setMig_fuseArray (m : MigrationUnit) : (s.setMig m).fuseArray = s.fuseArray := rfl
@[simp] theorem State.setMig_clock (m : MigrationUnit) : (s.setMig m).clock = s.clock := rfl
@[simp] theorem State.setMig_table (m : MigrationUnit) : (s.setMig m).table = s.table := rfl
@[simp] theorem State.setMig_req (m : MigrationUnit) : (s.setMig m).req = s.req := rfl
@[simp] theorem State.setMig_arb (m : MigrationUnit) : (s.setMig m).arb = s.arb := rfl
@[simp] theorem State.setMig_mig (m : MigrationUnit) : (s.setMig m).mig = m := rfl
@[simp] theorem State.setMig_watch (m : MigrationUnit) : (s.setMig m).watch = s.watch := rfl
@[simp] theorem State.setMig_patrol (m : MigrationUnit) : (s.setMig m).patrol = s.patrol := rfl
@[simp] theorem State.setMig_recs (m : MigrationUnit) : (s.setMig m).recs = s.recs := rfl
@[simp] theorem State.setMig_fuse (m : MigrationUnit) : (s.setMig m).fuse = s.fuse := rfl
@[simp] theorem State.setMig_port (m : MigrationUnit) : (s.setMig m).port = s.port := rfl
@[simp] theorem State.setMig_upSent (m : MigrationUnit) : (s.setMig m).upSent = s.upSent := rfl
@[simp] theorem State.setMig_downSent (m : MigrationUnit) : (s.setMig m).downSent = s.downSent := rfl
@[simp] theorem State.setMig_pending (m : MigrationUnit) : (s.setMig m).pending = s.pending := rfl

/-! ### reportFailure -/

@[simp] theorem State.reportFailure_pwrOk (r : FailureReport) : (s.reportFailure r).pwrOk = s.pwrOk := rfl
@[simp] theorem State.reportFailure_prstN (r : FailureReport) : (s.reportFailure r).prstN = s.prstN := rfl
@[simp] theorem State.reportFailure_fwe (r : FailureReport) : (s.reportFailure r).fwe = s.fwe := rfl
@[simp] theorem State.reportFailure_fuseArray (r : FailureReport) : (s.reportFailure r).fuseArray = s.fuseArray := rfl
@[simp] theorem State.reportFailure_clock (r : FailureReport) : (s.reportFailure r).clock = s.clock := rfl
@[simp] theorem State.reportFailure_table (r : FailureReport) : (s.reportFailure r).table = s.table := rfl
@[simp] theorem State.reportFailure_req (r : FailureReport) : (s.reportFailure r).req = s.req := rfl
@[simp] theorem State.reportFailure_arb (r : FailureReport) : (s.reportFailure r).arb = s.arb := rfl
@[simp] theorem State.reportFailure_mig (r : FailureReport) :
    (s.reportFailure r).mig = { s.mig with failures := s.mig.failures ++ [r] } := rfl
@[simp] theorem State.reportFailure_watch (r : FailureReport) : (s.reportFailure r).watch = s.watch := rfl
@[simp] theorem State.reportFailure_patrol (r : FailureReport) : (s.reportFailure r).patrol = s.patrol := rfl
@[simp] theorem State.reportFailure_recs (r : FailureReport) : (s.reportFailure r).recs = s.recs := rfl
@[simp] theorem State.reportFailure_fuse (r : FailureReport) : (s.reportFailure r).fuse = s.fuse := rfl
@[simp] theorem State.reportFailure_port (r : FailureReport) : (s.reportFailure r).port = s.port := rfl
@[simp] theorem State.reportFailure_upSent (r : FailureReport) : (s.reportFailure r).upSent = s.upSent := rfl
@[simp] theorem State.reportFailure_downSent (r : FailureReport) : (s.reportFailure r).downSent = s.downSent := rfl
@[simp] theorem State.reportFailure_pending (r : FailureReport) : (s.reportFailure r).pending = s.pending := rfl

/-! ### toIdle -/

@[simp] theorem State.toIdle_pwrOk : s.toIdle.pwrOk = s.pwrOk := rfl
@[simp] theorem State.toIdle_prstN : s.toIdle.prstN = s.prstN := rfl
@[simp] theorem State.toIdle_fwe : s.toIdle.fwe = s.fwe := rfl
@[simp] theorem State.toIdle_fuseArray : s.toIdle.fuseArray = s.fuseArray := rfl
@[simp] theorem State.toIdle_clock : s.toIdle.clock = s.clock := rfl
@[simp] theorem State.toIdle_table : s.toIdle.table = s.table := rfl
@[simp] theorem State.toIdle_req : s.toIdle.req = s.req := rfl
@[simp] theorem State.toIdle_arb : s.toIdle.arb = s.arb := rfl
@[simp] theorem State.toIdle_mig : s.toIdle.mig = { s.mig with context := .idle, startEvent := true } := rfl
@[simp] theorem State.toIdle_watch : s.toIdle.watch = s.watch := rfl
@[simp] theorem State.toIdle_patrol : s.toIdle.patrol = s.patrol := rfl
@[simp] theorem State.toIdle_recs : s.toIdle.recs = s.recs := rfl
@[simp] theorem State.toIdle_fuse : s.toIdle.fuse = s.fuse := rfl
@[simp] theorem State.toIdle_port : s.toIdle.port = s.port := rfl
@[simp] theorem State.toIdle_upSent : s.toIdle.upSent = s.upSent := rfl
@[simp] theorem State.toIdle_downSent : s.toIdle.downSent = s.downSent := rfl
@[simp] theorem State.toIdle_pending : s.toIdle.pending = s.pending := rfl

/-! ### returnRequest -/

@[simp] theorem State.returnRequest_pwrOk (r : RetireRequest) : (s.returnRequest r).pwrOk = s.pwrOk := rfl
@[simp] theorem State.returnRequest_prstN (r : RetireRequest) : (s.returnRequest r).prstN = s.prstN := rfl
@[simp] theorem State.returnRequest_fwe (r : RetireRequest) : (s.returnRequest r).fwe = s.fwe := rfl
@[simp] theorem State.returnRequest_fuseArray (r : RetireRequest) : (s.returnRequest r).fuseArray = s.fuseArray := rfl
@[simp] theorem State.returnRequest_clock (r : RetireRequest) : (s.returnRequest r).clock = s.clock := rfl
@[simp] theorem State.returnRequest_table (r : RetireRequest) : (s.returnRequest r).table = s.table := rfl
@[simp] theorem State.returnRequest_req (r : RetireRequest) : (s.returnRequest r).req = s.req := rfl
@[simp] theorem State.returnRequest_arb (r : RetireRequest) : (s.returnRequest r).arb = s.arb := rfl
@[simp] theorem State.returnRequest_mig (r : RetireRequest) :
    (s.returnRequest r).mig = { s.mig with waiting := r :: s.mig.waiting } := rfl
@[simp] theorem State.returnRequest_watch (r : RetireRequest) : (s.returnRequest r).watch = s.watch := rfl
@[simp] theorem State.returnRequest_patrol (r : RetireRequest) : (s.returnRequest r).patrol = s.patrol := rfl
@[simp] theorem State.returnRequest_recs (r : RetireRequest) : (s.returnRequest r).recs = s.recs := rfl
@[simp] theorem State.returnRequest_fuse (r : RetireRequest) : (s.returnRequest r).fuse = s.fuse := rfl
@[simp] theorem State.returnRequest_port (r : RetireRequest) : (s.returnRequest r).port = s.port := rfl
@[simp] theorem State.returnRequest_upSent (r : RetireRequest) : (s.returnRequest r).upSent = s.upSent := rfl
@[simp] theorem State.returnRequest_downSent (r : RetireRequest) : (s.returnRequest r).downSent = s.downSent := rfl
@[simp] theorem State.returnRequest_pending (r : RetireRequest) : (s.returnRequest r).pending = s.pending := rfl

/-! ### setPatrol -/

@[simp] theorem State.setPatrol_pwrOk (p : PatrolUnit) : (s.setPatrol p).pwrOk = s.pwrOk := rfl
@[simp] theorem State.setPatrol_prstN (p : PatrolUnit) : (s.setPatrol p).prstN = s.prstN := rfl
@[simp] theorem State.setPatrol_fwe (p : PatrolUnit) : (s.setPatrol p).fwe = s.fwe := rfl
@[simp] theorem State.setPatrol_fuseArray (p : PatrolUnit) : (s.setPatrol p).fuseArray = s.fuseArray := rfl
@[simp] theorem State.setPatrol_clock (p : PatrolUnit) : (s.setPatrol p).clock = s.clock := rfl
@[simp] theorem State.setPatrol_table (p : PatrolUnit) : (s.setPatrol p).table = s.table := rfl
@[simp] theorem State.setPatrol_req (p : PatrolUnit) : (s.setPatrol p).req = s.req := rfl
@[simp] theorem State.setPatrol_arb (p : PatrolUnit) : (s.setPatrol p).arb = s.arb := rfl
@[simp] theorem State.setPatrol_mig (p : PatrolUnit) : (s.setPatrol p).mig = s.mig := rfl
@[simp] theorem State.setPatrol_watch (p : PatrolUnit) : (s.setPatrol p).watch = s.watch := rfl
@[simp] theorem State.setPatrol_patrol (p : PatrolUnit) : (s.setPatrol p).patrol = p := rfl
@[simp] theorem State.setPatrol_recs (p : PatrolUnit) : (s.setPatrol p).recs = s.recs := rfl
@[simp] theorem State.setPatrol_fuse (p : PatrolUnit) : (s.setPatrol p).fuse = s.fuse := rfl
@[simp] theorem State.setPatrol_port (p : PatrolUnit) : (s.setPatrol p).port = s.port := rfl
@[simp] theorem State.setPatrol_upSent (p : PatrolUnit) : (s.setPatrol p).upSent = s.upSent := rfl
@[simp] theorem State.setPatrol_downSent (p : PatrolUnit) : (s.setPatrol p).downSent = s.downSent := rfl
@[simp] theorem State.setPatrol_pending (p : PatrolUnit) : (s.setPatrol p).pending = s.pending := rfl

/-! ### setProgrammer -/

@[simp] theorem State.setProgrammer_pwrOk (p : Programmer) : (s.setProgrammer p).pwrOk = s.pwrOk := rfl
@[simp] theorem State.setProgrammer_prstN (p : Programmer) : (s.setProgrammer p).prstN = s.prstN := rfl
@[simp] theorem State.setProgrammer_fwe (p : Programmer) : (s.setProgrammer p).fwe = s.fwe := rfl
@[simp] theorem State.setProgrammer_fuseArray (p : Programmer) : (s.setProgrammer p).fuseArray = s.fuseArray := rfl
@[simp] theorem State.setProgrammer_clock (p : Programmer) : (s.setProgrammer p).clock = s.clock := rfl
@[simp] theorem State.setProgrammer_table (p : Programmer) : (s.setProgrammer p).table = s.table := rfl
@[simp] theorem State.setProgrammer_req (p : Programmer) : (s.setProgrammer p).req = s.req := rfl
@[simp] theorem State.setProgrammer_arb (p : Programmer) : (s.setProgrammer p).arb = s.arb := rfl
@[simp] theorem State.setProgrammer_mig (p : Programmer) : (s.setProgrammer p).mig = s.mig := rfl
@[simp] theorem State.setProgrammer_watch (p : Programmer) : (s.setProgrammer p).watch = s.watch := rfl
@[simp] theorem State.setProgrammer_patrol (p : Programmer) : (s.setProgrammer p).patrol = s.patrol := rfl
@[simp] theorem State.setProgrammer_recs (p : Programmer) : (s.setProgrammer p).recs = s.recs := rfl
@[simp] theorem State.setProgrammer_fuse (p : Programmer) :
    (s.setProgrammer p).fuse = { s.fuse with programmer := p } := rfl
@[simp] theorem State.setProgrammer_port (p : Programmer) : (s.setProgrammer p).port = s.port := rfl
@[simp] theorem State.setProgrammer_upSent (p : Programmer) : (s.setProgrammer p).upSent = s.upSent := rfl
@[simp] theorem State.setProgrammer_downSent (p : Programmer) : (s.setProgrammer p).downSent = s.downSent := rfl
@[simp] theorem State.setProgrammer_pending (p : Programmer) : (s.setProgrammer p).pending = s.pending := rfl

/-! ### setWait -/

@[simp] theorem State.setWait_pwrOk (n : Nat) : (s.setWait n).pwrOk = s.pwrOk := rfl
@[simp] theorem State.setWait_prstN (n : Nat) : (s.setWait n).prstN = s.prstN := rfl
@[simp] theorem State.setWait_fwe (n : Nat) : (s.setWait n).fwe = s.fwe := rfl
@[simp] theorem State.setWait_fuseArray (n : Nat) : (s.setWait n).fuseArray = s.fuseArray := rfl
@[simp] theorem State.setWait_clock (n : Nat) : (s.setWait n).clock = s.clock := rfl
@[simp] theorem State.setWait_table (n : Nat) : (s.setWait n).table = s.table := rfl
@[simp] theorem State.setWait_req (n : Nat) : (s.setWait n).req = s.req := rfl
@[simp] theorem State.setWait_arb (n : Nat) : (s.setWait n).arb = { s.arb with bgWait := n } := rfl
@[simp] theorem State.setWait_mig (n : Nat) : (s.setWait n).mig = s.mig := rfl
@[simp] theorem State.setWait_watch (n : Nat) : (s.setWait n).watch = s.watch := rfl
@[simp] theorem State.setWait_patrol (n : Nat) : (s.setWait n).patrol = s.patrol := rfl
@[simp] theorem State.setWait_recs (n : Nat) : (s.setWait n).recs = s.recs := rfl
@[simp] theorem State.setWait_fuse (n : Nat) : (s.setWait n).fuse = s.fuse := rfl
@[simp] theorem State.setWait_port (n : Nat) : (s.setWait n).port = s.port := rfl
@[simp] theorem State.setWait_upSent (n : Nat) : (s.setWait n).upSent = s.upSent := rfl
@[simp] theorem State.setWait_downSent (n : Nat) : (s.setWait n).downSent = s.downSent := rfl
@[simp] theorem State.setWait_pending (n : Nat) : (s.setWait n).pending = s.pending := rfl

/-! ### setSuspect -/

@[simp] theorem State.setSuspect_pwrOk (i : Nat) (e : Suspect) : (s.setSuspect i e).pwrOk = s.pwrOk := rfl
@[simp] theorem State.setSuspect_prstN (i : Nat) (e : Suspect) : (s.setSuspect i e).prstN = s.prstN := rfl
@[simp] theorem State.setSuspect_fwe (i : Nat) (e : Suspect) : (s.setSuspect i e).fwe = s.fwe := rfl
@[simp] theorem State.setSuspect_fuseArray (i : Nat) (e : Suspect) : (s.setSuspect i e).fuseArray = s.fuseArray := rfl
@[simp] theorem State.setSuspect_clock (i : Nat) (e : Suspect) : (s.setSuspect i e).clock = s.clock := rfl
@[simp] theorem State.setSuspect_table (i : Nat) (e : Suspect) : (s.setSuspect i e).table = s.table := rfl
@[simp] theorem State.setSuspect_req (i : Nat) (e : Suspect) : (s.setSuspect i e).req = s.req := rfl
@[simp] theorem State.setSuspect_arb (i : Nat) (e : Suspect) : (s.setSuspect i e).arb = s.arb := rfl
@[simp] theorem State.setSuspect_mig (i : Nat) (e : Suspect) : (s.setSuspect i e).mig = s.mig := rfl
@[simp] theorem State.setSuspect_watch (i : Nat) (e : Suspect) :
    (s.setSuspect i e).watch = { s.watch with suspects := s.watch.suspects.set i (some e) } := rfl
@[simp] theorem State.setSuspect_patrol (i : Nat) (e : Suspect) : (s.setSuspect i e).patrol = s.patrol := rfl
@[simp] theorem State.setSuspect_recs (i : Nat) (e : Suspect) : (s.setSuspect i e).recs = s.recs := rfl
@[simp] theorem State.setSuspect_fuse (i : Nat) (e : Suspect) : (s.setSuspect i e).fuse = s.fuse := rfl
@[simp] theorem State.setSuspect_port (i : Nat) (e : Suspect) : (s.setSuspect i e).port = s.port := rfl
@[simp] theorem State.setSuspect_upSent (i : Nat) (e : Suspect) : (s.setSuspect i e).upSent = s.upSent := rfl
@[simp] theorem State.setSuspect_downSent (i : Nat) (e : Suspect) : (s.setSuspect i e).downSent = s.downSent := rfl
@[simp] theorem State.setSuspect_pending (i : Nat) (e : Suspect) : (s.setSuspect i e).pending = s.pending := rfl

/-! ### markDenied -/

@[simp] theorem State.markDenied_pwrOk (p : Nat) : (s.markDenied p).pwrOk = s.pwrOk := rfl
@[simp] theorem State.markDenied_prstN (p : Nat) : (s.markDenied p).prstN = s.prstN := rfl
@[simp] theorem State.markDenied_fwe (p : Nat) : (s.markDenied p).fwe = s.fwe := rfl
@[simp] theorem State.markDenied_fuseArray (p : Nat) : (s.markDenied p).fuseArray = s.fuseArray := rfl
@[simp] theorem State.markDenied_clock (p : Nat) : (s.markDenied p).clock = s.clock := rfl
@[simp] theorem State.markDenied_table (p : Nat) : (s.markDenied p).table = s.table := rfl
@[simp] theorem State.markDenied_req (p : Nat) : (s.markDenied p).req = s.req := rfl
@[simp] theorem State.markDenied_arb (p : Nat) : (s.markDenied p).arb = s.arb := rfl
@[simp] theorem State.markDenied_mig (p : Nat) : (s.markDenied p).mig = s.mig := rfl
@[simp] theorem State.markDenied_watch (p : Nat) :
    (s.markDenied p).watch = { s.watch with suspects := markDeniedIn s.watch.suspects p } := rfl
@[simp] theorem State.markDenied_patrol (p : Nat) : (s.markDenied p).patrol = s.patrol := rfl
@[simp] theorem State.markDenied_recs (p : Nat) : (s.markDenied p).recs = s.recs := rfl
@[simp] theorem State.markDenied_fuse (p : Nat) : (s.markDenied p).fuse = s.fuse := rfl
@[simp] theorem State.markDenied_port (p : Nat) : (s.markDenied p).port = s.port := rfl
@[simp] theorem State.markDenied_upSent (p : Nat) : (s.markDenied p).upSent = s.upSent := rfl
@[simp] theorem State.markDenied_downSent (p : Nat) : (s.markDenied p).downSent = s.downSent := rfl
@[simp] theorem State.markDenied_pending (p : Nat) : (s.markDenied p).pending = s.pending := rfl

/-! ### makeReport -/

@[simp] theorem State.makeReport_pwrOk (r : StatusReport) : (s.makeReport r).pwrOk = s.pwrOk := rfl
@[simp] theorem State.makeReport_prstN (r : StatusReport) : (s.makeReport r).prstN = s.prstN := rfl
@[simp] theorem State.makeReport_fwe (r : StatusReport) : (s.makeReport r).fwe = s.fwe := rfl
@[simp] theorem State.makeReport_fuseArray (r : StatusReport) : (s.makeReport r).fuseArray = s.fuseArray := rfl
@[simp] theorem State.makeReport_clock (r : StatusReport) : (s.makeReport r).clock = s.clock := rfl
@[simp] theorem State.makeReport_table (r : StatusReport) : (s.makeReport r).table = s.table := rfl
@[simp] theorem State.makeReport_req (r : StatusReport) : (s.makeReport r).req = s.req := rfl
@[simp] theorem State.makeReport_arb (r : StatusReport) : (s.makeReport r).arb = s.arb := rfl
@[simp] theorem State.makeReport_mig (r : StatusReport) : (s.makeReport r).mig = s.mig := rfl
@[simp] theorem State.makeReport_watch (r : StatusReport) :
    (s.makeReport r).watch = { s.watch with reports := s.watch.reports ++ [r] } := rfl
@[simp] theorem State.makeReport_patrol (r : StatusReport) : (s.makeReport r).patrol = s.patrol := rfl
@[simp] theorem State.makeReport_recs (r : StatusReport) : (s.makeReport r).recs = s.recs := rfl
@[simp] theorem State.makeReport_fuse (r : StatusReport) : (s.makeReport r).fuse = s.fuse := rfl
@[simp] theorem State.makeReport_port (r : StatusReport) : (s.makeReport r).port = s.port := rfl
@[simp] theorem State.makeReport_upSent (r : StatusReport) : (s.makeReport r).upSent = s.upSent := rfl
@[simp] theorem State.makeReport_downSent (r : StatusReport) : (s.makeReport r).downSent = s.downSent := rfl
@[simp] theorem State.makeReport_pending (r : StatusReport) : (s.makeReport r).pending = s.pending := rfl

/-! ### removeTag -/

@[simp] theorem State.removeTag_pwrOk (t : Tag) : (s.removeTag t).pwrOk = s.pwrOk := rfl
@[simp] theorem State.removeTag_prstN (t : Tag) : (s.removeTag t).prstN = s.prstN := rfl
@[simp] theorem State.removeTag_fwe (t : Tag) : (s.removeTag t).fwe = s.fwe := rfl
@[simp] theorem State.removeTag_fuseArray (t : Tag) : (s.removeTag t).fuseArray = s.fuseArray := rfl
@[simp] theorem State.removeTag_clock (t : Tag) : (s.removeTag t).clock = s.clock := rfl
@[simp] theorem State.removeTag_table (t : Tag) : (s.removeTag t).table = s.table := rfl
@[simp] theorem State.removeTag_req (t : Tag) : (s.removeTag t).req = s.req := rfl
@[simp] theorem State.removeTag_arb (t : Tag) :
    (s.removeTag t).arb = { s.arb with outstanding := s.arb.outstanding.filter fun x => x.1 != t } := rfl
@[simp] theorem State.removeTag_mig (t : Tag) : (s.removeTag t).mig = s.mig := rfl
@[simp] theorem State.removeTag_watch (t : Tag) : (s.removeTag t).watch = s.watch := rfl
@[simp] theorem State.removeTag_patrol (t : Tag) : (s.removeTag t).patrol = s.patrol := rfl
@[simp] theorem State.removeTag_recs (t : Tag) : (s.removeTag t).recs = s.recs := rfl
@[simp] theorem State.removeTag_fuse (t : Tag) : (s.removeTag t).fuse = s.fuse := rfl
@[simp] theorem State.removeTag_port (t : Tag) : (s.removeTag t).port = s.port := rfl
@[simp] theorem State.removeTag_upSent (t : Tag) : (s.removeTag t).upSent = s.upSent := rfl
@[simp] theorem State.removeTag_downSent (t : Tag) : (s.removeTag t).downSent = s.downSent := rfl
@[simp] theorem State.removeTag_pending (t : Tag) : (s.removeTag t).pending = s.pending := rfl

/-! ### place -/

@[simp] theorem State.place_pwrOk (t : Tag) (e : OutEntry) (bs : List WriteLine) :
    (s.place t e bs).pwrOk = s.pwrOk := rfl
@[simp] theorem State.place_prstN (t : Tag) (e : OutEntry) (bs : List WriteLine) :
    (s.place t e bs).prstN = s.prstN := rfl
@[simp] theorem State.place_fwe (t : Tag) (e : OutEntry) (bs : List WriteLine) : (s.place t e bs).fwe = s.fwe := rfl
@[simp] theorem State.place_fuseArray (t : Tag) (e : OutEntry) (bs : List WriteLine) :
    (s.place t e bs).fuseArray = s.fuseArray := rfl
@[simp] theorem State.place_clock (t : Tag) (e : OutEntry) (bs : List WriteLine) :
    (s.place t e bs).clock = s.clock := rfl
@[simp] theorem State.place_table (t : Tag) (e : OutEntry) (bs : List WriteLine) :
    (s.place t e bs).table = s.table := rfl
@[simp] theorem State.place_req (t : Tag) (e : OutEntry) (bs : List WriteLine) : (s.place t e bs).req = s.req := rfl
@[simp] theorem State.place_arb (t : Tag) (e : OutEntry) (bs : List WriteLine) :
    (s.place t e bs).arb = s.arb.place t e := rfl
@[simp] theorem State.place_mig (t : Tag) (e : OutEntry) (bs : List WriteLine) : (s.place t e bs).mig = s.mig := rfl
@[simp] theorem State.place_watch (t : Tag) (e : OutEntry) (bs : List WriteLine) :
    (s.place t e bs).watch = s.watch := rfl
@[simp] theorem State.place_patrol (t : Tag) (e : OutEntry) (bs : List WriteLine) :
    (s.place t e bs).patrol = s.patrol := rfl
@[simp] theorem State.place_recs (t : Tag) (e : OutEntry) (bs : List WriteLine) : (s.place t e bs).recs = s.recs := rfl
@[simp] theorem State.place_fuse (t : Tag) (e : OutEntry) (bs : List WriteLine) : (s.place t e bs).fuse = s.fuse := rfl
@[simp] theorem State.place_port (t : Tag) (e : OutEntry) (bs : List WriteLine) : (s.place t e bs).port = s.port := rfl
@[simp] theorem State.place_upSent (t : Tag) (e : OutEntry) (bs : List WriteLine) :
    (s.place t e bs).upSent = s.upSent := rfl
@[simp] theorem State.place_downSent (t : Tag) (e : OutEntry) (bs : List WriteLine) :
    (s.place t e bs).downSent = s.downSent ++ [requestMessage t e bs] := rfl
@[simp] theorem State.place_pending (t : Tag) (e : OutEntry) (bs : List WriteLine) :
    (s.place t e bs).pending = s.pending := rfl

/-! ### burn -/

@[simp] theorem State.burn_pwrOk (k : Nat) (bits : FuseWord) : (s.burn k bits).pwrOk = s.pwrOk := rfl
@[simp] theorem State.burn_prstN (k : Nat) (bits : FuseWord) : (s.burn k bits).prstN = s.prstN := rfl
@[simp] theorem State.burn_fwe (k : Nat) (bits : FuseWord) : (s.burn k bits).fwe = s.fwe := rfl
@[simp] theorem State.burn_fuseArray (k : Nat) (bits : FuseWord) :
    (s.burn k bits).fuseArray = setFuse s.fuseArray k fun w => w ||| bits := rfl
@[simp] theorem State.burn_clock (k : Nat) (bits : FuseWord) : (s.burn k bits).clock = s.clock := rfl
@[simp] theorem State.burn_table (k : Nat) (bits : FuseWord) : (s.burn k bits).table = s.table := rfl
@[simp] theorem State.burn_req (k : Nat) (bits : FuseWord) : (s.burn k bits).req = s.req := rfl
@[simp] theorem State.burn_arb (k : Nat) (bits : FuseWord) : (s.burn k bits).arb = s.arb := rfl
@[simp] theorem State.burn_mig (k : Nat) (bits : FuseWord) : (s.burn k bits).mig = s.mig := rfl
@[simp] theorem State.burn_watch (k : Nat) (bits : FuseWord) : (s.burn k bits).watch = s.watch := rfl
@[simp] theorem State.burn_patrol (k : Nat) (bits : FuseWord) : (s.burn k bits).patrol = s.patrol := rfl
@[simp] theorem State.burn_recs (k : Nat) (bits : FuseWord) : (s.burn k bits).recs = s.recs := rfl
@[simp] theorem State.burn_fuse (k : Nat) (bits : FuseWord) : (s.burn k bits).fuse = s.fuse := rfl
@[simp] theorem State.burn_port (k : Nat) (bits : FuseWord) : (s.burn k bits).port = s.port := rfl
@[simp] theorem State.burn_upSent (k : Nat) (bits : FuseWord) : (s.burn k bits).upSent = s.upSent := rfl
@[simp] theorem State.burn_downSent (k : Nat) (bits : FuseWord) : (s.burn k bits).downSent = s.downSent := rfl
@[simp] theorem State.burn_pending (k : Nat) (bits : FuseWord) : (s.burn k bits).pending = s.pending := rfl

/-! ### writeParam -/

@[simp] theorem State.writeParam_pwrOk (p : Param) (v : Nat) : (s.writeParam p v).pwrOk = s.pwrOk := rfl
@[simp] theorem State.writeParam_prstN (p : Param) (v : Nat) : (s.writeParam p v).prstN = s.prstN := rfl
@[simp] theorem State.writeParam_fwe (p : Param) (v : Nat) : (s.writeParam p v).fwe = s.fwe := rfl
@[simp] theorem State.writeParam_fuseArray (p : Param) (v : Nat) : (s.writeParam p v).fuseArray = s.fuseArray := rfl
@[simp] theorem State.writeParam_clock (p : Param) (v : Nat) : (s.writeParam p v).clock = s.clock := rfl
@[simp] theorem State.writeParam_table (p : Param) (v : Nat) : (s.writeParam p v).table = s.table := rfl
@[simp] theorem State.writeParam_req (p : Param) (v : Nat) : (s.writeParam p v).req = s.req := rfl
@[simp] theorem State.writeParam_arb (p : Param) (v : Nat) : (s.writeParam p v).arb = s.arb := rfl
@[simp] theorem State.writeParam_mig (p : Param) (v : Nat) : (s.writeParam p v).mig = s.mig := rfl
@[simp] theorem State.writeParam_watch (p : Param) (v : Nat) : (s.writeParam p v).watch = s.watch := rfl
@[simp] theorem State.writeParam_patrol (p : Param) (v : Nat) : (s.writeParam p v).patrol = s.patrol := rfl
@[simp] theorem State.writeParam_recs (p : Param) (v : Nat) : (s.writeParam p v).recs = s.recs := rfl
@[simp] theorem State.writeParam_fuse (p : Param) (v : Nat) : (s.writeParam p v).fuse = s.fuse := rfl
@[simp] theorem State.writeParam_port (p : Param) (v : Nat) :
    (s.writeParam p v).port = { s.port with params := s.port.params.write p v } := rfl
@[simp] theorem State.writeParam_upSent (p : Param) (v : Nat) : (s.writeParam p v).upSent = s.upSent := rfl
@[simp] theorem State.writeParam_downSent (p : Param) (v : Nat) : (s.writeParam p v).downSent = s.downSent := rfl
@[simp] theorem State.writeParam_pending (p : Param) (v : Nat) : (s.writeParam p v).pending = s.pending := rfl

/-! ### sendResult -/

@[simp] theorem State.sendResult_pwrOk (n : Nat) : (s.sendResult n).pwrOk = s.pwrOk := rfl
@[simp] theorem State.sendResult_prstN (n : Nat) : (s.sendResult n).prstN = s.prstN := rfl
@[simp] theorem State.sendResult_fwe (n : Nat) : (s.sendResult n).fwe = s.fwe := rfl
@[simp] theorem State.sendResult_fuseArray (n : Nat) : (s.sendResult n).fuseArray = s.fuseArray := rfl
@[simp] theorem State.sendResult_clock (n : Nat) : (s.sendResult n).clock = s.clock := rfl
@[simp] theorem State.sendResult_table (n : Nat) : (s.sendResult n).table = s.table := rfl
@[simp] theorem State.sendResult_req (n : Nat) : (s.sendResult n).req = s.req := rfl
@[simp] theorem State.sendResult_arb (n : Nat) : (s.sendResult n).arb = s.arb := rfl
@[simp] theorem State.sendResult_mig (n : Nat) : (s.sendResult n).mig = s.mig := rfl
@[simp] theorem State.sendResult_watch (n : Nat) : (s.sendResult n).watch = s.watch := rfl
@[simp] theorem State.sendResult_patrol (n : Nat) : (s.sendResult n).patrol = s.patrol := rfl
@[simp] theorem State.sendResult_recs (n : Nat) : (s.sendResult n).recs = s.recs := rfl
@[simp] theorem State.sendResult_fuse (n : Nat) : (s.sendResult n).fuse = s.fuse := rfl
@[simp] theorem State.sendResult_port (n : Nat) :
    (s.sendResult n).port = { s.port with mso := .highZ, sent := some (readFrameMso s.port.result n) } := rfl
@[simp] theorem State.sendResult_upSent (n : Nat) : (s.sendResult n).upSent = s.upSent := rfl
@[simp] theorem State.sendResult_downSent (n : Nat) : (s.sendResult n).downSent = s.downSent := rfl
@[simp] theorem State.sendResult_pending (n : Nat) : (s.sendResult n).pending = s.pending := rfl

/-! ### raiseMcs -/

@[simp] theorem State.raiseMcs_pwrOk : s.raiseMcs.pwrOk = s.pwrOk := rfl
@[simp] theorem State.raiseMcs_prstN : s.raiseMcs.prstN = s.prstN := rfl
@[simp] theorem State.raiseMcs_fwe : s.raiseMcs.fwe = s.fwe := rfl
@[simp] theorem State.raiseMcs_fuseArray : s.raiseMcs.fuseArray = s.fuseArray := rfl
@[simp] theorem State.raiseMcs_clock : s.raiseMcs.clock = s.clock := rfl
@[simp] theorem State.raiseMcs_table : s.raiseMcs.table = s.table := rfl
@[simp] theorem State.raiseMcs_req : s.raiseMcs.req = s.req := rfl
@[simp] theorem State.raiseMcs_arb : s.raiseMcs.arb = s.arb := rfl
@[simp] theorem State.raiseMcs_mig : s.raiseMcs.mig = s.mig := rfl
@[simp] theorem State.raiseMcs_watch : s.raiseMcs.watch = s.watch := rfl
@[simp] theorem State.raiseMcs_patrol : s.raiseMcs.patrol = s.patrol := rfl
@[simp] theorem State.raiseMcs_recs : s.raiseMcs.recs = s.recs := rfl
@[simp] theorem State.raiseMcs_fuse : s.raiseMcs.fuse = s.fuse := rfl
@[simp] theorem State.raiseMcs_port : s.raiseMcs.port = { s.port with mcs := .high } := rfl
@[simp] theorem State.raiseMcs_upSent : s.raiseMcs.upSent = s.upSent := rfl
@[simp] theorem State.raiseMcs_downSent : s.raiseMcs.downSent = s.downSent := rfl
@[simp] theorem State.raiseMcs_pending : s.raiseMcs.pending = s.pending := rfl

/-! ### holdResult -/

@[simp] theorem State.holdResult_pwrOk (c : Byte) (r : ResultCode) (bs : List Byte) (n : Nat) :
    (s.holdResult c r bs n).pwrOk = s.pwrOk := rfl
@[simp] theorem State.holdResult_prstN (c : Byte) (r : ResultCode) (bs : List Byte) (n : Nat) :
    (s.holdResult c r bs n).prstN = s.prstN := rfl
@[simp] theorem State.holdResult_fwe (c : Byte) (r : ResultCode) (bs : List Byte) (n : Nat) :
    (s.holdResult c r bs n).fwe = s.fwe := rfl
@[simp] theorem State.holdResult_fuseArray (c : Byte) (r : ResultCode) (bs : List Byte) (n : Nat) :
    (s.holdResult c r bs n).fuseArray = s.fuseArray := rfl
@[simp] theorem State.holdResult_clock (c : Byte) (r : ResultCode) (bs : List Byte) (n : Nat) :
    (s.holdResult c r bs n).clock = s.clock := rfl
@[simp] theorem State.holdResult_table (c : Byte) (r : ResultCode) (bs : List Byte) (n : Nat) :
    (s.holdResult c r bs n).table = s.table := rfl
@[simp] theorem State.holdResult_req (c : Byte) (r : ResultCode) (bs : List Byte) (n : Nat) :
    (s.holdResult c r bs n).req = s.req := rfl
@[simp] theorem State.holdResult_arb (c : Byte) (r : ResultCode) (bs : List Byte) (n : Nat) :
    (s.holdResult c r bs n).arb = s.arb := rfl
@[simp] theorem State.holdResult_mig (c : Byte) (r : ResultCode) (bs : List Byte) (n : Nat) :
    (s.holdResult c r bs n).mig = s.mig := rfl
@[simp] theorem State.holdResult_watch (c : Byte) (r : ResultCode) (bs : List Byte) (n : Nat) :
    (s.holdResult c r bs n).watch = s.watch := rfl
@[simp] theorem State.holdResult_patrol (c : Byte) (r : ResultCode) (bs : List Byte) (n : Nat) :
    (s.holdResult c r bs n).patrol = s.patrol := rfl
@[simp] theorem State.holdResult_recs (c : Byte) (r : ResultCode) (bs : List Byte) (n : Nat) :
    (s.holdResult c r bs n).recs = s.recs := rfl
@[simp] theorem State.holdResult_fuse (c : Byte) (r : ResultCode) (bs : List Byte) (n : Nat) :
    (s.holdResult c r bs n).fuse = s.fuse := rfl
@[simp] theorem State.holdResult_port (c : Byte) (r : ResultCode) (bs : List Byte) (n : Nat) :
    (s.holdResult c r bs n).port =
      { result := { command := c, result := r, payload := bs }, params := s.port.params,
        mcs := s.port.mcs, mso := .highZ, sent := some (List.replicate n Config.filler) } := rfl
@[simp] theorem State.holdResult_upSent (c : Byte) (r : ResultCode) (bs : List Byte) (n : Nat) :
    (s.holdResult c r bs n).upSent = s.upSent := rfl
@[simp] theorem State.holdResult_downSent (c : Byte) (r : ResultCode) (bs : List Byte) (n : Nat) :
    (s.holdResult c r bs n).downSent = s.downSent := rfl
@[simp] theorem State.holdResult_pending (c : Byte) (r : ResultCode) (bs : List Byte) (n : Nat) :
    (s.holdResult c r bs n).pending = s.pending := rfl

/-! ### passMicroseconds -/

@[simp] theorem State.passMicroseconds_pwrOk (d : Nat) : (s.passMicroseconds d).pwrOk = s.pwrOk := rfl
@[simp] theorem State.passMicroseconds_prstN (d : Nat) : (s.passMicroseconds d).prstN = s.prstN := rfl
@[simp] theorem State.passMicroseconds_fwe (d : Nat) : (s.passMicroseconds d).fwe = s.fwe := rfl
@[simp] theorem State.passMicroseconds_fuseArray (d : Nat) : (s.passMicroseconds d).fuseArray = s.fuseArray := rfl
@[simp] theorem State.passMicroseconds_clock (d : Nat) :
    (s.passMicroseconds d).clock = { s.clock with now := s.clock.now + d } := rfl
@[simp] theorem State.passMicroseconds_table (d : Nat) : (s.passMicroseconds d).table = s.table := rfl
@[simp] theorem State.passMicroseconds_req (d : Nat) : (s.passMicroseconds d).req = s.req := rfl
@[simp] theorem State.passMicroseconds_arb (d : Nat) : (s.passMicroseconds d).arb = s.arb := rfl
@[simp] theorem State.passMicroseconds_mig (d : Nat) : (s.passMicroseconds d).mig = s.mig := rfl
@[simp] theorem State.passMicroseconds_watch (d : Nat) : (s.passMicroseconds d).watch = s.watch := rfl
@[simp] theorem State.passMicroseconds_patrol (d : Nat) :
    (s.passMicroseconds d).patrol = s.patrol.pass s.params.patrolGap d := rfl
@[simp] theorem State.passMicroseconds_recs (d : Nat) : (s.passMicroseconds d).recs = s.recs := rfl
@[simp] theorem State.passMicroseconds_fuse (d : Nat) : (s.passMicroseconds d).fuse = s.fuse := rfl
@[simp] theorem State.passMicroseconds_port (d : Nat) : (s.passMicroseconds d).port = s.port := rfl
@[simp] theorem State.passMicroseconds_upSent (d : Nat) : (s.passMicroseconds d).upSent = s.upSent := rfl
@[simp] theorem State.passMicroseconds_downSent (d : Nat) : (s.passMicroseconds d).downSent = s.downSent := rfl
@[simp] theorem State.passMicroseconds_pending (d : Nat) : (s.passMicroseconds d).pending = s.pending := rfl

/-! ### moveToHold -/

@[simp] theorem State.moveToHold_pwrOk (k : Nat) (rest : List Nat) : (s.moveToHold k rest).pwrOk = s.pwrOk := rfl
@[simp] theorem State.moveToHold_prstN (k : Nat) (rest : List Nat) : (s.moveToHold k rest).prstN = s.prstN := rfl
@[simp] theorem State.moveToHold_fwe (k : Nat) (rest : List Nat) : (s.moveToHold k rest).fwe = s.fwe := rfl
@[simp] theorem State.moveToHold_fuseArray (k : Nat) (rest : List Nat) :
    (s.moveToHold k rest).fuseArray = s.fuseArray := rfl
@[simp] theorem State.moveToHold_clock (k : Nat) (rest : List Nat) : (s.moveToHold k rest).clock = s.clock := rfl
@[simp] theorem State.moveToHold_table (k : Nat) (rest : List Nat) : (s.moveToHold k rest).table = s.table := rfl
@[simp] theorem State.moveToHold_arb (k : Nat) (rest : List Nat) : (s.moveToHold k rest).arb = s.arb := rfl
@[simp] theorem State.moveToHold_mig (k : Nat) (rest : List Nat) : (s.moveToHold k rest).mig = s.mig := rfl
@[simp] theorem State.moveToHold_watch (k : Nat) (rest : List Nat) : (s.moveToHold k rest).watch = s.watch := rfl
@[simp] theorem State.moveToHold_patrol (k : Nat) (rest : List Nat) : (s.moveToHold k rest).patrol = s.patrol := rfl
@[simp] theorem State.moveToHold_recs (k : Nat) (rest : List Nat) : (s.moveToHold k rest).recs = s.recs := rfl
@[simp] theorem State.moveToHold_fuse (k : Nat) (rest : List Nat) : (s.moveToHold k rest).fuse = s.fuse := rfl
@[simp] theorem State.moveToHold_port (k : Nat) (rest : List Nat) : (s.moveToHold k rest).port = s.port := rfl
@[simp] theorem State.moveToHold_upSent (k : Nat) (rest : List Nat) : (s.moveToHold k rest).upSent = s.upSent := rfl
@[simp] theorem State.moveToHold_downSent (k : Nat) (rest : List Nat) :
    (s.moveToHold k rest).downSent = s.downSent := rfl
@[simp] theorem State.moveToHold_pending (k : Nat) (rest : List Nat) : (s.moveToHold k rest).pending = s.pending := rfl

/-! ### returnHeld -/

@[simp] theorem State.returnHeld_pwrOk : s.returnHeld.pwrOk = s.pwrOk := rfl
@[simp] theorem State.returnHeld_prstN : s.returnHeld.prstN = s.prstN := rfl
@[simp] theorem State.returnHeld_fwe : s.returnHeld.fwe = s.fwe := rfl
@[simp] theorem State.returnHeld_fuseArray : s.returnHeld.fuseArray = s.fuseArray := rfl
@[simp] theorem State.returnHeld_clock : s.returnHeld.clock = s.clock := rfl
@[simp] theorem State.returnHeld_table : s.returnHeld.table = s.table := rfl
@[simp] theorem State.returnHeld_arb : s.returnHeld.arb = s.arb := rfl
@[simp] theorem State.returnHeld_mig : s.returnHeld.mig = s.mig := rfl
@[simp] theorem State.returnHeld_watch : s.returnHeld.watch = s.watch := rfl
@[simp] theorem State.returnHeld_patrol : s.returnHeld.patrol = s.patrol := rfl
@[simp] theorem State.returnHeld_recs : s.returnHeld.recs = s.recs := rfl
@[simp] theorem State.returnHeld_fuse : s.returnHeld.fuse = s.fuse := rfl
@[simp] theorem State.returnHeld_port : s.returnHeld.port = s.port := rfl
@[simp] theorem State.returnHeld_upSent : s.returnHeld.upSent = s.upSent := rfl
@[simp] theorem State.returnHeld_downSent : s.returnHeld.downSent = s.downSent := rfl
@[simp] theorem State.returnHeld_pending : s.returnHeld.pending = s.pending := rfl

/-! ### leaveQueues -/

@[simp] theorem State.leaveQueues_pwrOk (k : Nat) : (s.leaveQueues k).pwrOk = s.pwrOk := rfl
@[simp] theorem State.leaveQueues_prstN (k : Nat) : (s.leaveQueues k).prstN = s.prstN := rfl
@[simp] theorem State.leaveQueues_fwe (k : Nat) : (s.leaveQueues k).fwe = s.fwe := rfl
@[simp] theorem State.leaveQueues_fuseArray (k : Nat) : (s.leaveQueues k).fuseArray = s.fuseArray := rfl
@[simp] theorem State.leaveQueues_clock (k : Nat) : (s.leaveQueues k).clock = s.clock := rfl
@[simp] theorem State.leaveQueues_table (k : Nat) : (s.leaveQueues k).table = s.table := rfl
@[simp] theorem State.leaveQueues_req (k : Nat) :
    (s.leaveQueues k).req =
      { s.req with relay := s.req.relay.filter (· != k), hold := s.req.hold.filter (· != k) } := rfl
@[simp] theorem State.leaveQueues_arb (k : Nat) : (s.leaveQueues k).arb = s.arb := rfl
@[simp] theorem State.leaveQueues_mig (k : Nat) : (s.leaveQueues k).mig = s.mig := rfl
@[simp] theorem State.leaveQueues_watch (k : Nat) : (s.leaveQueues k).watch = s.watch := rfl
@[simp] theorem State.leaveQueues_patrol (k : Nat) : (s.leaveQueues k).patrol = s.patrol := rfl
@[simp] theorem State.leaveQueues_recs (k : Nat) : (s.leaveQueues k).recs = s.recs := rfl
@[simp] theorem State.leaveQueues_fuse (k : Nat) : (s.leaveQueues k).fuse = s.fuse := rfl
@[simp] theorem State.leaveQueues_port (k : Nat) : (s.leaveQueues k).port = s.port := rfl
@[simp] theorem State.leaveQueues_upSent (k : Nat) : (s.leaveQueues k).upSent = s.upSent := rfl
@[simp] theorem State.leaveQueues_downSent (k : Nat) : (s.leaveQueues k).downSent = s.downSent := rfl
@[simp] theorem State.leaveQueues_pending (k : Nat) : (s.leaveQueues k).pending = s.pending := rfl

/-! ### freeSlotCredit -/

@[simp] theorem State.freeSlotCredit_pwrOk (k : Nat) : (s.freeSlotCredit k).pwrOk = s.pwrOk := rfl
@[simp] theorem State.freeSlotCredit_prstN (k : Nat) : (s.freeSlotCredit k).prstN = s.prstN := rfl
@[simp] theorem State.freeSlotCredit_fwe (k : Nat) : (s.freeSlotCredit k).fwe = s.fwe := rfl
@[simp] theorem State.freeSlotCredit_fuseArray (k : Nat) : (s.freeSlotCredit k).fuseArray = s.fuseArray := rfl
@[simp] theorem State.freeSlotCredit_clock (k : Nat) : (s.freeSlotCredit k).clock = s.clock := rfl
@[simp] theorem State.freeSlotCredit_table (k : Nat) : (s.freeSlotCredit k).table = s.table := rfl
@[simp] theorem State.freeSlotCredit_req (k : Nat) :
    (s.freeSlotCredit k).req = { s.req with slots := s.req.slots.set k none, credits := s.req.credits + 1 } := rfl
@[simp] theorem State.freeSlotCredit_arb (k : Nat) : (s.freeSlotCredit k).arb = s.arb := rfl
@[simp] theorem State.freeSlotCredit_mig (k : Nat) : (s.freeSlotCredit k).mig = s.mig := rfl
@[simp] theorem State.freeSlotCredit_watch (k : Nat) : (s.freeSlotCredit k).watch = s.watch := rfl
@[simp] theorem State.freeSlotCredit_patrol (k : Nat) : (s.freeSlotCredit k).patrol = s.patrol := rfl
@[simp] theorem State.freeSlotCredit_recs (k : Nat) : (s.freeSlotCredit k).recs = s.recs := rfl
@[simp] theorem State.freeSlotCredit_fuse (k : Nat) : (s.freeSlotCredit k).fuse = s.fuse := rfl
@[simp] theorem State.freeSlotCredit_port (k : Nat) : (s.freeSlotCredit k).port = s.port := rfl
@[simp] theorem State.freeSlotCredit_upSent (k : Nat) : (s.freeSlotCredit k).upSent = s.upSent ++ [.credit 1#8] := rfl
@[simp] theorem State.freeSlotCredit_downSent (k : Nat) : (s.freeSlotCredit k).downSent = s.downSent := rfl
@[simp] theorem State.freeSlotCredit_pending (k : Nat) : (s.freeSlotCredit k).pending = s.pending := rfl

/-! ### activate -/

@[simp] theorem State.activate_pwrOk (k : Nat) (x : Slot) (a : Half) (b : Option Half) :
    (s.activate k x a b).pwrOk = s.pwrOk := rfl
@[simp] theorem State.activate_prstN (k : Nat) (x : Slot) (a : Half) (b : Option Half) :
    (s.activate k x a b).prstN = s.prstN := rfl
@[simp] theorem State.activate_fwe (k : Nat) (x : Slot) (a : Half) (b : Option Half) :
    (s.activate k x a b).fwe = s.fwe := rfl
@[simp] theorem State.activate_fuseArray (k : Nat) (x : Slot) (a : Half) (b : Option Half) :
    (s.activate k x a b).fuseArray = s.fuseArray := rfl
@[simp] theorem State.activate_clock (k : Nat) (x : Slot) (a : Half) (b : Option Half) :
    (s.activate k x a b).clock = s.clock := rfl
@[simp] theorem State.activate_table (k : Nat) (x : Slot) (a : Half) (b : Option Half) :
    (s.activate k x a b).table = s.table := rfl
@[simp] theorem State.activate_arb (k : Nat) (x : Slot) (a : Half) (b : Option Half) :
    (s.activate k x a b).arb = s.arb := rfl
@[simp] theorem State.activate_mig (k : Nat) (x : Slot) (a : Half) (b : Option Half) :
    (s.activate k x a b).mig = s.mig := rfl
@[simp] theorem State.activate_watch (k : Nat) (x : Slot) (a : Half) (b : Option Half) :
    (s.activate k x a b).watch = s.watch := rfl
@[simp] theorem State.activate_patrol (k : Nat) (x : Slot) (a : Half) (b : Option Half) :
    (s.activate k x a b).patrol = s.patrol := rfl
@[simp] theorem State.activate_recs (k : Nat) (x : Slot) (a : Half) (b : Option Half) :
    (s.activate k x a b).recs = s.recs := rfl
@[simp] theorem State.activate_fuse (k : Nat) (x : Slot) (a : Half) (b : Option Half) :
    (s.activate k x a b).fuse = s.fuse := rfl
@[simp] theorem State.activate_port (k : Nat) (x : Slot) (a : Half) (b : Option Half) :
    (s.activate k x a b).port = s.port := rfl
@[simp] theorem State.activate_upSent (k : Nat) (x : Slot) (a : Half) (b : Option Half) :
    (s.activate k x a b).upSent = s.upSent := rfl
@[simp] theorem State.activate_downSent (k : Nat) (x : Slot) (a : Half) (b : Option Half) :
    (s.activate k x a b).downSent = s.downSent := rfl
@[simp] theorem State.activate_pending (k : Nat) (x : Slot) (a : Half) (b : Option Half) :
    (s.activate k x a b).pending = s.pending := rfl

/-! ### grantCredits -/

@[simp] theorem State.grantCredits_pwrOk : s.grantCredits.pwrOk = s.pwrOk := rfl
@[simp] theorem State.grantCredits_prstN : s.grantCredits.prstN = s.prstN := rfl
@[simp] theorem State.grantCredits_fwe : s.grantCredits.fwe = s.fwe := rfl
@[simp] theorem State.grantCredits_fuseArray : s.grantCredits.fuseArray = s.fuseArray := rfl
@[simp] theorem State.grantCredits_clock : s.grantCredits.clock = s.clock := rfl
@[simp] theorem State.grantCredits_table : s.grantCredits.table = s.table := rfl
@[simp] theorem State.grantCredits_req : s.grantCredits.req = { s.req with credits := Config.trackerSlots } := rfl
@[simp] theorem State.grantCredits_arb : s.grantCredits.arb = s.arb := rfl
@[simp] theorem State.grantCredits_mig : s.grantCredits.mig = s.mig := rfl
@[simp] theorem State.grantCredits_watch : s.grantCredits.watch = s.watch := rfl
@[simp] theorem State.grantCredits_patrol : s.grantCredits.patrol = s.patrol := rfl
@[simp] theorem State.grantCredits_recs : s.grantCredits.recs = s.recs := rfl
@[simp] theorem State.grantCredits_fuse : s.grantCredits.fuse = s.fuse := rfl
@[simp] theorem State.grantCredits_port : s.grantCredits.port = s.port := rfl
@[simp] theorem State.grantCredits_upSent :
    s.grantCredits.upSent = s.upSent ++ [.credit (BitVec.ofNat 8 Config.trackerSlots)] := rfl
@[simp] theorem State.grantCredits_downSent : s.grantCredits.downSent = s.downSent := rfl
@[simp] theorem State.grantCredits_pending : s.grantCredits.pending = s.pending := rfl

/-! ### release -/

@[simp] theorem State.release_pwrOk : s.release.pwrOk = s.pwrOk := rfl
@[simp] theorem State.release_prstN : s.release.prstN = s.prstN := rfl
@[simp] theorem State.release_fwe : s.release.fwe = s.fwe := rfl
@[simp] theorem State.release_fuseArray : s.release.fuseArray = s.fuseArray := rfl
@[simp] theorem State.release_clock : s.release.clock = s.clock := rfl
@[simp] theorem State.release_table : s.release.table = s.table := rfl
@[simp] theorem State.release_req : s.release.req = { s.req with credits := Config.trackerSlots } := rfl
@[simp] theorem State.release_arb : s.release.arb = { s.arb with linkUp := true } := rfl
@[simp] theorem State.release_mig : s.release.mig = s.mig := rfl
@[simp] theorem State.release_watch : s.release.watch = s.watch := rfl
@[simp] theorem State.release_recs : s.release.recs = s.recs := rfl
@[simp] theorem State.release_fuse : s.release.fuse = s.fuse := rfl
@[simp] theorem State.release_port : s.release.port = s.port := rfl
@[simp] theorem State.release_upSent :
    s.release.upSent = s.upSent ++ [.credit (BitVec.ofNat 8 Config.trackerSlots)] := rfl
@[simp] theorem State.release_downSent : s.release.downSent = s.downSent := rfl
@[simp] theorem State.release_pending : s.release.pending = s.pending := rfl

/-! ### releaseTarget -/

@[simp] theorem State.releaseTarget_pwrOk (k : Nat) : (s.releaseTarget k).pwrOk = s.pwrOk := rfl
@[simp] theorem State.releaseTarget_prstN (k : Nat) : (s.releaseTarget k).prstN = s.prstN := rfl
@[simp] theorem State.releaseTarget_fwe (k : Nat) : (s.releaseTarget k).fwe = s.fwe := rfl
@[simp] theorem State.releaseTarget_fuseArray (k : Nat) : (s.releaseTarget k).fuseArray = s.fuseArray := rfl
@[simp] theorem State.releaseTarget_clock (k : Nat) : (s.releaseTarget k).clock = s.clock := rfl
@[simp] theorem State.releaseTarget_table (k : Nat) : (s.releaseTarget k).table = s.table.set k .free := rfl
@[simp] theorem State.releaseTarget_req (k : Nat) : (s.releaseTarget k).req = s.req := rfl
@[simp] theorem State.releaseTarget_arb (k : Nat) : (s.releaseTarget k).arb = s.arb := rfl
@[simp] theorem State.releaseTarget_mig (k : Nat) : (s.releaseTarget k).mig = s.mig := rfl
@[simp] theorem State.releaseTarget_watch (k : Nat) : (s.releaseTarget k).watch = s.watch := rfl
@[simp] theorem State.releaseTarget_patrol (k : Nat) : (s.releaseTarget k).patrol = s.patrol := rfl
@[simp] theorem State.releaseTarget_recs (k : Nat) : (s.releaseTarget k).recs = s.recs := rfl
@[simp] theorem State.releaseTarget_fuse (k : Nat) : (s.releaseTarget k).fuse = s.fuse := rfl
@[simp] theorem State.releaseTarget_port (k : Nat) : (s.releaseTarget k).port = s.port := rfl
@[simp] theorem State.releaseTarget_upSent (k : Nat) : (s.releaseTarget k).upSent = s.upSent := rfl
@[simp] theorem State.releaseTarget_downSent (k : Nat) : (s.releaseTarget k).downSent = s.downSent := rfl
@[simp] theorem State.releaseTarget_pending (k : Nat) : (s.releaseTarget k).pending = s.pending := rfl

/-! ### retireTarget -/

@[simp] theorem State.retireTarget_pwrOk (k : Nat) : (s.retireTarget k).pwrOk = s.pwrOk := rfl
@[simp] theorem State.retireTarget_prstN (k : Nat) : (s.retireTarget k).prstN = s.prstN := rfl
@[simp] theorem State.retireTarget_fwe (k : Nat) : (s.retireTarget k).fwe = s.fwe := rfl
@[simp] theorem State.retireTarget_fuseArray (k : Nat) : (s.retireTarget k).fuseArray = s.fuseArray := rfl
@[simp] theorem State.retireTarget_clock (k : Nat) : (s.retireTarget k).clock = s.clock := rfl
@[simp] theorem State.retireTarget_table (k : Nat) :
    (s.retireTarget k).table = s.table.set k (.retired none none false false) := rfl
@[simp] theorem State.retireTarget_req (k : Nat) : (s.retireTarget k).req = s.req := rfl
@[simp] theorem State.retireTarget_arb (k : Nat) : (s.retireTarget k).arb = s.arb := rfl
@[simp] theorem State.retireTarget_mig (k : Nat) : (s.retireTarget k).mig = s.mig := rfl
@[simp] theorem State.retireTarget_watch (k : Nat) : (s.retireTarget k).watch = s.watch := rfl
@[simp] theorem State.retireTarget_patrol (k : Nat) : (s.retireTarget k).patrol = s.patrol := rfl
@[simp] theorem State.retireTarget_recs (k : Nat) : (s.retireTarget k).recs = s.recs := rfl
@[simp] theorem State.retireTarget_fuse (k : Nat) : (s.retireTarget k).fuse = s.fuse := rfl
@[simp] theorem State.retireTarget_port (k : Nat) : (s.retireTarget k).port = s.port := rfl
@[simp] theorem State.retireTarget_upSent (k : Nat) : (s.retireTarget k).upSent = s.upSent := rfl
@[simp] theorem State.retireTarget_downSent (k : Nat) : (s.retireTarget k).downSent = s.downSent := rfl
@[simp] theorem State.retireTarget_pending (k : Nat) : (s.retireTarget k).pending = s.pending := rfl

/-! ### load -/

@[simp] theorem State.load_pwrOk (c : Capacity) : (s.load c).pwrOk = s.pwrOk := rfl
@[simp] theorem State.load_prstN (c : Capacity) : (s.load c).prstN = s.prstN := rfl
@[simp] theorem State.load_fwe (c : Capacity) : (s.load c).fwe = s.fwe := rfl
@[simp] theorem State.load_fuseArray (c : Capacity) : (s.load c).fuseArray = s.fuseArray := rfl
@[simp] theorem State.load_clock (c : Capacity) : (s.load c).clock = s.clock := rfl
@[simp] theorem State.load_req (c : Capacity) : (s.load c).req = s.req := rfl
@[simp] theorem State.load_arb (c : Capacity) : (s.load c).arb = s.arb := rfl
@[simp] theorem State.load_mig (c : Capacity) : (s.load c).mig = s.mig := rfl
@[simp] theorem State.load_watch (c : Capacity) : (s.load c).watch = s.watch := rfl
@[simp] theorem State.load_patrol (c : Capacity) : (s.load c).patrol = s.patrol := rfl
@[simp] theorem State.load_port (c : Capacity) : (s.load c).port = s.port := rfl
@[simp] theorem State.load_upSent (c : Capacity) : (s.load c).upSent = s.upSent := rfl
@[simp] theorem State.load_downSent (c : Capacity) : (s.load c).downSent = s.downSent := rfl
@[simp] theorem State.load_pending (c : Capacity) : (s.load c).pending = s.pending := rfl

end Sys2Proof.Machine
end

