-- ==== Sys2Proof/Laws/Frame.lean ====
section
/-! SUPPORT. For each shared operation one lemma that says which units it can change, and for every other field of State the
lemma that it is as before. -/

namespace Sys2Proof.Machine

/-! ### testHead -/

/-- The hold test changes the request unit alone (R31). -/
theorem testHead_frame (n : Nat) (s : State) :
    ∃ (r : RequestUnit),
      (testHead n s) = { s with req := r } := by
  induction n generalizing s with
  | zero => exact ⟨s.req, rfl⟩
  | succ n ih =>
    unfold testHead
    split
    · split
      · obtain ⟨r, h⟩ := ih (s.moveToHold _ _)
        exact ⟨r, by rw [h]; rfl⟩
      · exact ⟨s.req, rfl⟩
    · exact ⟨s.req, rfl⟩

@[simp] theorem testHead_pwrOk (n : Nat) (s : State) :
    (testHead n s).pwrOk = s.pwrOk := by
  obtain ⟨_, h⟩ := testHead_frame n s
  rw [h]

@[simp] theorem testHead_prstN (n : Nat) (s : State) :
    (testHead n s).prstN = s.prstN := by
  obtain ⟨_, h⟩ := testHead_frame n s
  rw [h]

@[simp] theorem testHead_fwe (n : Nat) (s : State) :
    (testHead n s).fwe = s.fwe := by
  obtain ⟨_, h⟩ := testHead_frame n s
  rw [h]

@[simp] theorem testHead_fuseArray (n : Nat) (s : State) :
    (testHead n s).fuseArray = s.fuseArray := by
  obtain ⟨_, h⟩ := testHead_frame n s
  rw [h]

@[simp] theorem testHead_clock (n : Nat) (s : State) :
    (testHead n s).clock = s.clock := by
  obtain ⟨_, h⟩ := testHead_frame n s
  rw [h]

@[simp] theorem testHead_table (n : Nat) (s : State) :
    (testHead n s).table = s.table := by
  obtain ⟨_, h⟩ := testHead_frame n s
  rw [h]

@[simp] theorem testHead_arb (n : Nat) (s : State) :
    (testHead n s).arb = s.arb := by
  obtain ⟨_, h⟩ := testHead_frame n s
  rw [h]

@[simp] theorem testHead_mig (n : Nat) (s : State) :
    (testHead n s).mig = s.mig := by
  obtain ⟨_, h⟩ := testHead_frame n s
  rw [h]

@[simp] theorem testHead_watch (n : Nat) (s : State) :
    (testHead n s).watch = s.watch := by
  obtain ⟨_, h⟩ := testHead_frame n s
  rw [h]

@[simp] theorem testHead_patrol (n : Nat) (s : State) :
    (testHead n s).patrol = s.patrol := by
  obtain ⟨_, h⟩ := testHead_frame n s
  rw [h]

@[simp] theorem testHead_recs (n : Nat) (s : State) :
    (testHead n s).recs = s.recs := by
  obtain ⟨_, h⟩ := testHead_frame n s
  rw [h]

@[simp] theorem testHead_fuse (n : Nat) (s : State) :
    (testHead n s).fuse = s.fuse := by
  obtain ⟨_, h⟩ := testHead_frame n s
  rw [h]

@[simp] theorem testHead_port (n : Nat) (s : State) :
    (testHead n s).port = s.port := by
  obtain ⟨_, h⟩ := testHead_frame n s
  rw [h]

@[simp] theorem testHead_upSent (n : Nat) (s : State) :
    (testHead n s).upSent = s.upSent := by
  obtain ⟨_, h⟩ := testHead_frame n s
  rw [h]

@[simp] theorem testHead_downSent (n : Nat) (s : State) :
    (testHead n s).downSent = s.downSent := by
  obtain ⟨_, h⟩ := testHead_frame n s
  rw [h]

@[simp] theorem testHead_pending (n : Nat) (s : State) :
    (testHead n s).pending = s.pending := by
  obtain ⟨_, h⟩ := testHead_frame n s
  rw [h]

/-! ### State.headTested -/

/-- The hold test changes the request unit alone (R31). -/
theorem State.headTested_frame (s : State) :
    ∃ (r : RequestUnit),
      s.headTested = { s with req := r } := by
  exact testHead_frame _ s

@[simp] theorem State.headTested_pwrOk (s : State) :
    s.headTested.pwrOk = s.pwrOk := by
  obtain ⟨_, h⟩ := State.headTested_frame s
  rw [h]

@[simp] theorem State.headTested_prstN (s : State) :
    s.headTested.prstN = s.prstN := by
  obtain ⟨_, h⟩ := State.headTested_frame s
  rw [h]

@[simp] theorem State.headTested_fwe (s : State) :
    s.headTested.fwe = s.fwe := by
  obtain ⟨_, h⟩ := State.headTested_frame s
  rw [h]

@[simp] theorem State.headTested_fuseArray (s : State) :
    s.headTested.fuseArray = s.fuseArray := by
  obtain ⟨_, h⟩ := State.headTested_frame s
  rw [h]

@[simp] theorem State.headTested_clock (s : State) :
    s.headTested.clock = s.clock := by
  obtain ⟨_, h⟩ := State.headTested_frame s
  rw [h]

@[simp] theorem State.headTested_table (s : State) :
    s.headTested.table = s.table := by
  obtain ⟨_, h⟩ := State.headTested_frame s
  rw [h]

@[simp] theorem State.headTested_arb (s : State) :
    s.headTested.arb = s.arb := by
  obtain ⟨_, h⟩ := State.headTested_frame s
  rw [h]

@[simp] theorem State.headTested_mig (s : State) :
    s.headTested.mig = s.mig := by
  obtain ⟨_, h⟩ := State.headTested_frame s
  rw [h]

@[simp] theorem State.headTested_watch (s : State) :
    s.headTested.watch = s.watch := by
  obtain ⟨_, h⟩ := State.headTested_frame s
  rw [h]

@[simp] theorem State.headTested_patrol (s : State) :
    s.headTested.patrol = s.patrol := by
  obtain ⟨_, h⟩ := State.headTested_frame s
  rw [h]

@[simp] theorem State.headTested_recs (s : State) :
    s.headTested.recs = s.recs := by
  obtain ⟨_, h⟩ := State.headTested_frame s
  rw [h]

@[simp] theorem State.headTested_fuse (s : State) :
    s.headTested.fuse = s.fuse := by
  obtain ⟨_, h⟩ := State.headTested_frame s
  rw [h]

@[simp] theorem State.headTested_port (s : State) :
    s.headTested.port = s.port := by
  obtain ⟨_, h⟩ := State.headTested_frame s
  rw [h]

@[simp] theorem State.headTested_upSent (s : State) :
    s.headTested.upSent = s.upSent := by
  obtain ⟨_, h⟩ := State.headTested_frame s
  rw [h]

@[simp] theorem State.headTested_downSent (s : State) :
    s.headTested.downSent = s.downSent := by
  obtain ⟨_, h⟩ := State.headTested_frame s
  rw [h]

@[simp] theorem State.headTested_pending (s : State) :
    s.headTested.pending = s.pending := by
  obtain ⟨_, h⟩ := State.headTested_frame s
  rw [h]

/-! ### State.testIfNewHead -/

/-- The hold test of a new head changes the request unit alone (R31). -/
theorem State.testIfNewHead_frame (s : State) (x : Option Nat) :
    ∃ (r : RequestUnit),
      (s.testIfNewHead x) = { s with req := r } := by
  unfold State.testIfNewHead
  split
  · exact ⟨s.req, rfl⟩
  · exact State.headTested_frame s

@[simp] theorem State.testIfNewHead_pwrOk (s : State) (x : Option Nat) :
    (s.testIfNewHead x).pwrOk = s.pwrOk := by
  obtain ⟨_, h⟩ := State.testIfNewHead_frame s x
  rw [h]

@[simp] theorem State.testIfNewHead_prstN (s : State) (x : Option Nat) :
    (s.testIfNewHead x).prstN = s.prstN := by
  obtain ⟨_, h⟩ := State.testIfNewHead_frame s x
  rw [h]

@[simp] theorem State.testIfNewHead_fwe (s : State) (x : Option Nat) :
    (s.testIfNewHead x).fwe = s.fwe := by
  obtain ⟨_, h⟩ := State.testIfNewHead_frame s x
  rw [h]

@[simp] theorem State.testIfNewHead_fuseArray (s : State) (x : Option Nat) :
    (s.testIfNewHead x).fuseArray = s.fuseArray := by
  obtain ⟨_, h⟩ := State.testIfNewHead_frame s x
  rw [h]

@[simp] theorem State.testIfNewHead_clock (s : State) (x : Option Nat) :
    (s.testIfNewHead x).clock = s.clock := by
  obtain ⟨_, h⟩ := State.testIfNewHead_frame s x
  rw [h]

@[simp] theorem State.testIfNewHead_table (s : State) (x : Option Nat) :
    (s.testIfNewHead x).table = s.table := by
  obtain ⟨_, h⟩ := State.testIfNewHead_frame s x
  rw [h]

@[simp] theorem State.testIfNewHead_arb (s : State) (x : Option Nat) :
    (s.testIfNewHead x).arb = s.arb := by
  obtain ⟨_, h⟩ := State.testIfNewHead_frame s x
  rw [h]

@[simp] theorem State.testIfNewHead_mig (s : State) (x : Option Nat) :
    (s.testIfNewHead x).mig = s.mig := by
  obtain ⟨_, h⟩ := State.testIfNewHead_frame s x
  rw [h]

@[simp] theorem State.testIfNewHead_watch (s : State) (x : Option Nat) :
    (s.testIfNewHead x).watch = s.watch := by
  obtain ⟨_, h⟩ := State.testIfNewHead_frame s x
  rw [h]

@[simp] theorem State.testIfNewHead_patrol (s : State) (x : Option Nat) :
    (s.testIfNewHead x).patrol = s.patrol := by
  obtain ⟨_, h⟩ := State.testIfNewHead_frame s x
  rw [h]

@[simp] theorem State.testIfNewHead_recs (s : State) (x : Option Nat) :
    (s.testIfNewHead x).recs = s.recs := by
  obtain ⟨_, h⟩ := State.testIfNewHead_frame s x
  rw [h]

@[simp] theorem State.testIfNewHead_fuse (s : State) (x : Option Nat) :
    (s.testIfNewHead x).fuse = s.fuse := by
  obtain ⟨_, h⟩ := State.testIfNewHead_frame s x
  rw [h]

@[simp] theorem State.testIfNewHead_port (s : State) (x : Option Nat) :
    (s.testIfNewHead x).port = s.port := by
  obtain ⟨_, h⟩ := State.testIfNewHead_frame s x
  rw [h]

@[simp] theorem State.testIfNewHead_upSent (s : State) (x : Option Nat) :
    (s.testIfNewHead x).upSent = s.upSent := by
  obtain ⟨_, h⟩ := State.testIfNewHead_frame s x
  rw [h]

@[simp] theorem State.testIfNewHead_downSent (s : State) (x : Option Nat) :
    (s.testIfNewHead x).downSent = s.downSent := by
  obtain ⟨_, h⟩ := State.testIfNewHead_frame s x
  rw [h]

@[simp] theorem State.testIfNewHead_pending (s : State) (x : Option Nat) :
    (s.testIfNewHead x).pending = s.pending := by
  obtain ⟨_, h⟩ := State.testIfNewHead_frame s x
  rw [h]

/-! ### State.accept -/

/-- An accepted arrival changes the request unit alone (R28). -/
theorem State.accept_frame (s : State) (k : Nat) (x : Slot) :
    ∃ (r : RequestUnit),
      (s.accept k x) = { s with req := r } := by
  unfold State.accept
  obtain ⟨r, h⟩ := State.testIfNewHead_frame
    { s with
      req :=
        { credits := s.req.credits - 1, slots := s.req.slots.set k (some x), relay := s.req.relay ++ [k],
          hold := s.req.hold } } s.req.relay.head?
  exact ⟨r, by rw [h]⟩

@[simp] theorem State.accept_pwrOk (s : State) (k : Nat) (x : Slot) :
    (s.accept k x).pwrOk = s.pwrOk := by
  obtain ⟨_, h⟩ := State.accept_frame s k x
  rw [h]

@[simp] theorem State.accept_prstN (s : State) (k : Nat) (x : Slot) :
    (s.accept k x).prstN = s.prstN := by
  obtain ⟨_, h⟩ := State.accept_frame s k x
  rw [h]

@[simp] theorem State.accept_fwe (s : State) (k : Nat) (x : Slot) :
    (s.accept k x).fwe = s.fwe := by
  obtain ⟨_, h⟩ := State.accept_frame s k x
  rw [h]

@[simp] theorem State.accept_fuseArray (s : State) (k : Nat) (x : Slot) :
    (s.accept k x).fuseArray = s.fuseArray := by
  obtain ⟨_, h⟩ := State.accept_frame s k x
  rw [h]

@[simp] theorem State.accept_clock (s : State) (k : Nat) (x : Slot) :
    (s.accept k x).clock = s.clock := by
  obtain ⟨_, h⟩ := State.accept_frame s k x
  rw [h]

@[simp] theorem State.accept_table (s : State) (k : Nat) (x : Slot) :
    (s.accept k x).table = s.table := by
  obtain ⟨_, h⟩ := State.accept_frame s k x
  rw [h]

@[simp] theorem State.accept_arb (s : State) (k : Nat) (x : Slot) :
    (s.accept k x).arb = s.arb := by
  obtain ⟨_, h⟩ := State.accept_frame s k x
  rw [h]

@[simp] theorem State.accept_mig (s : State) (k : Nat) (x : Slot) :
    (s.accept k x).mig = s.mig := by
  obtain ⟨_, h⟩ := State.accept_frame s k x
  rw [h]

@[simp] theorem State.accept_watch (s : State) (k : Nat) (x : Slot) :
    (s.accept k x).watch = s.watch := by
  obtain ⟨_, h⟩ := State.accept_frame s k x
  rw [h]

@[simp] theorem State.accept_patrol (s : State) (k : Nat) (x : Slot) :
    (s.accept k x).patrol = s.patrol := by
  obtain ⟨_, h⟩ := State.accept_frame s k x
  rw [h]

@[simp] theorem State.accept_recs (s : State) (k : Nat) (x : Slot) :
    (s.accept k x).recs = s.recs := by
  obtain ⟨_, h⟩ := State.accept_frame s k x
  rw [h]

@[simp] theorem State.accept_fuse (s : State) (k : Nat) (x : Slot) :
    (s.accept k x).fuse = s.fuse := by
  obtain ⟨_, h⟩ := State.accept_frame s k x
  rw [h]

@[simp] theorem State.accept_port (s : State) (k : Nat) (x : Slot) :
    (s.accept k x).port = s.port := by
  obtain ⟨_, h⟩ := State.accept_frame s k x
  rw [h]

@[simp] theorem State.accept_upSent (s : State) (k : Nat) (x : Slot) :
    (s.accept k x).upSent = s.upSent := by
  obtain ⟨_, h⟩ := State.accept_frame s k x
  rw [h]

@[simp] theorem State.accept_downSent (s : State) (k : Nat) (x : Slot) :
    (s.accept k x).downSent = s.downSent := by
  obtain ⟨_, h⟩ := State.accept_frame s k x
  rw [h]

@[simp] theorem State.accept_pending (s : State) (k : Nat) (x : Slot) :
    (s.accept k x).pending = s.pending := by
  obtain ⟨_, h⟩ := State.accept_frame s k x
  rw [h]

/-! ### State.releaseLock -/

/-- The release of the lock changes the request unit alone (R81). -/
theorem State.releaseLock_frame (s : State) (x : Option Lock) :
    ∃ (r : RequestUnit),
      (s.releaseLock x) = { s with req := r } := by
  unfold State.releaseLock
  split
  · exact ⟨_, rfl⟩
  · exact ⟨s.req, rfl⟩

@[simp] theorem State.releaseLock_pwrOk (s : State) (x : Option Lock) :
    (s.releaseLock x).pwrOk = s.pwrOk := by
  obtain ⟨_, h⟩ := State.releaseLock_frame s x
  rw [h]

@[simp] theorem State.releaseLock_prstN (s : State) (x : Option Lock) :
    (s.releaseLock x).prstN = s.prstN := by
  obtain ⟨_, h⟩ := State.releaseLock_frame s x
  rw [h]

@[simp] theorem State.releaseLock_fwe (s : State) (x : Option Lock) :
    (s.releaseLock x).fwe = s.fwe := by
  obtain ⟨_, h⟩ := State.releaseLock_frame s x
  rw [h]

@[simp] theorem State.releaseLock_fuseArray (s : State) (x : Option Lock) :
    (s.releaseLock x).fuseArray = s.fuseArray := by
  obtain ⟨_, h⟩ := State.releaseLock_frame s x
  rw [h]

@[simp] theorem State.releaseLock_clock (s : State) (x : Option Lock) :
    (s.releaseLock x).clock = s.clock := by
  obtain ⟨_, h⟩ := State.releaseLock_frame s x
  rw [h]

@[simp] theorem State.releaseLock_table (s : State) (x : Option Lock) :
    (s.releaseLock x).table = s.table := by
  obtain ⟨_, h⟩ := State.releaseLock_frame s x
  rw [h]

@[simp] theorem State.releaseLock_arb (s : State) (x : Option Lock) :
    (s.releaseLock x).arb = s.arb := by
  obtain ⟨_, h⟩ := State.releaseLock_frame s x
  rw [h]

@[simp] theorem State.releaseLock_mig (s : State) (x : Option Lock) :
    (s.releaseLock x).mig = s.mig := by
  obtain ⟨_, h⟩ := State.releaseLock_frame s x
  rw [h]

@[simp] theorem State.releaseLock_watch (s : State) (x : Option Lock) :
    (s.releaseLock x).watch = s.watch := by
  obtain ⟨_, h⟩ := State.releaseLock_frame s x
  rw [h]

@[simp] theorem State.releaseLock_patrol (s : State) (x : Option Lock) :
    (s.releaseLock x).patrol = s.patrol := by
  obtain ⟨_, h⟩ := State.releaseLock_frame s x
  rw [h]

@[simp] theorem State.releaseLock_recs (s : State) (x : Option Lock) :
    (s.releaseLock x).recs = s.recs := by
  obtain ⟨_, h⟩ := State.releaseLock_frame s x
  rw [h]

@[simp] theorem State.releaseLock_fuse (s : State) (x : Option Lock) :
    (s.releaseLock x).fuse = s.fuse := by
  obtain ⟨_, h⟩ := State.releaseLock_frame s x
  rw [h]

@[simp] theorem State.releaseLock_port (s : State) (x : Option Lock) :
    (s.releaseLock x).port = s.port := by
  obtain ⟨_, h⟩ := State.releaseLock_frame s x
  rw [h]

@[simp] theorem State.releaseLock_upSent (s : State) (x : Option Lock) :
    (s.releaseLock x).upSent = s.upSent := by
  obtain ⟨_, h⟩ := State.releaseLock_frame s x
  rw [h]

@[simp] theorem State.releaseLock_downSent (s : State) (x : Option Lock) :
    (s.releaseLock x).downSent = s.downSent := by
  obtain ⟨_, h⟩ := State.releaseLock_frame s x
  rw [h]

@[simp] theorem State.releaseLock_pending (s : State) (x : Option Lock) :
    (s.releaseLock x).pending = s.pending := by
  obtain ⟨_, h⟩ := State.releaseLock_frame s x
  rw [h]

/-! ### State.reportIfSecondFailed -/

/-- A failed second half reaches the migration unit alone (R39). -/
theorem State.reportIfSecondFailed_frame (s : State) (x : Slot) (e : OutEntry) (t : Tag) (a : Answer) :
    ∃ (m : MigrationUnit),
      (s.reportIfSecondFailed x e t a) = { s with mig := m } := by
  unfold State.reportIfSecondFailed
  split
  · exact ⟨_, rfl⟩
  · exact ⟨s.mig, rfl⟩

@[simp] theorem State.reportIfSecondFailed_pwrOk (s : State) (x : Slot) (e : OutEntry) (t : Tag) (a : Answer) :
    (s.reportIfSecondFailed x e t a).pwrOk = s.pwrOk := by
  obtain ⟨_, h⟩ := State.reportIfSecondFailed_frame s x e t a
  rw [h]

@[simp] theorem State.reportIfSecondFailed_prstN (s : State) (x : Slot) (e : OutEntry) (t : Tag) (a : Answer) :
    (s.reportIfSecondFailed x e t a).prstN = s.prstN := by
  obtain ⟨_, h⟩ := State.reportIfSecondFailed_frame s x e t a
  rw [h]

@[simp] theorem State.reportIfSecondFailed_fwe (s : State) (x : Slot) (e : OutEntry) (t : Tag) (a : Answer) :
    (s.reportIfSecondFailed x e t a).fwe = s.fwe := by
  obtain ⟨_, h⟩ := State.reportIfSecondFailed_frame s x e t a
  rw [h]

@[simp] theorem State.reportIfSecondFailed_fuseArray (s : State) (x : Slot) (e : OutEntry) (t : Tag) (a : Answer) :
    (s.reportIfSecondFailed x e t a).fuseArray = s.fuseArray := by
  obtain ⟨_, h⟩ := State.reportIfSecondFailed_frame s x e t a
  rw [h]

@[simp] theorem State.reportIfSecondFailed_clock (s : State) (x : Slot) (e : OutEntry) (t : Tag) (a : Answer) :
    (s.reportIfSecondFailed x e t a).clock = s.clock := by
  obtain ⟨_, h⟩ := State.reportIfSecondFailed_frame s x e t a
  rw [h]

@[simp] theorem State.reportIfSecondFailed_table (s : State) (x : Slot) (e : OutEntry) (t : Tag) (a : Answer) :
    (s.reportIfSecondFailed x e t a).table = s.table := by
  obtain ⟨_, h⟩ := State.reportIfSecondFailed_frame s x e t a
  rw [h]

@[simp] theorem State.reportIfSecondFailed_req (s : State) (x : Slot) (e : OutEntry) (t : Tag) (a : Answer) :
    (s.reportIfSecondFailed x e t a).req = s.req := by
  obtain ⟨_, h⟩ := State.reportIfSecondFailed_frame s x e t a
  rw [h]

@[simp] theorem State.reportIfSecondFailed_arb (s : State) (x : Slot) (e : OutEntry) (t : Tag) (a : Answer) :
    (s.reportIfSecondFailed x e t a).arb = s.arb := by
  obtain ⟨_, h⟩ := State.reportIfSecondFailed_frame s x e t a
  rw [h]

@[simp] theorem State.reportIfSecondFailed_watch (s : State) (x : Slot) (e : OutEntry) (t : Tag) (a : Answer) :
    (s.reportIfSecondFailed x e t a).watch = s.watch := by
  obtain ⟨_, h⟩ := State.reportIfSecondFailed_frame s x e t a
  rw [h]

@[simp] theorem State.reportIfSecondFailed_patrol (s : State) (x : Slot) (e : OutEntry) (t : Tag) (a : Answer) :
    (s.reportIfSecondFailed x e t a).patrol = s.patrol := by
  obtain ⟨_, h⟩ := State.reportIfSecondFailed_frame s x e t a
  rw [h]

@[simp] theorem State.reportIfSecondFailed_recs (s : State) (x : Slot) (e : OutEntry) (t : Tag) (a : Answer) :
    (s.reportIfSecondFailed x e t a).recs = s.recs := by
  obtain ⟨_, h⟩ := State.reportIfSecondFailed_frame s x e t a
  rw [h]

@[simp] theorem State.reportIfSecondFailed_fuse (s : State) (x : Slot) (e : OutEntry) (t : Tag) (a : Answer) :
    (s.reportIfSecondFailed x e t a).fuse = s.fuse := by
  obtain ⟨_, h⟩ := State.reportIfSecondFailed_frame s x e t a
  rw [h]

@[simp] theorem State.reportIfSecondFailed_port (s : State) (x : Slot) (e : OutEntry) (t : Tag) (a : Answer) :
    (s.reportIfSecondFailed x e t a).port = s.port := by
  obtain ⟨_, h⟩ := State.reportIfSecondFailed_frame s x e t a
  rw [h]

@[simp] theorem State.reportIfSecondFailed_upSent (s : State) (x : Slot) (e : OutEntry) (t : Tag) (a : Answer) :
    (s.reportIfSecondFailed x e t a).upSent = s.upSent := by
  obtain ⟨_, h⟩ := State.reportIfSecondFailed_frame s x e t a
  rw [h]

@[simp] theorem State.reportIfSecondFailed_downSent (s : State) (x : Slot) (e : OutEntry) (t : Tag) (a : Answer) :
    (s.reportIfSecondFailed x e t a).downSent = s.downSent := by
  obtain ⟨_, h⟩ := State.reportIfSecondFailed_frame s x e t a
  rw [h]

@[simp] theorem State.reportIfSecondFailed_pending (s : State) (x : Slot) (e : OutEntry) (t : Tag) (a : Answer) :
    (s.reportIfSecondFailed x e t a).pending = s.pending := by
  obtain ⟨_, h⟩ := State.reportIfSecondFailed_frame s x e t a
  rw [h]

/-! ### requestResponse -/

/-- A slot's handling of a response changes the request unit, its messages and records, and the failure reports
(R37). -/
theorem requestResponse_frame (k : Nat) (t : Tag) (e : OutEntry) (a : Answer) (s : State) :
    ∃ (r : RequestUnit) (m : MigrationUnit) (c : RecordUnit) (u : List UpMessage),
      (requestResponse k t e a s) = { s with req := r, mig := m, recs := c, upSent := u } := by
  unfold requestResponse
  split
  · exact ⟨s.req, s.mig, s.recs, s.upSent, rfl⟩
  · rename_i x _
    obtain ⟨m, h⟩ := State.reportIfSecondFailed_frame s x e t a
    dsimp only
    split
    · exact ⟨_, m, s.recs, s.upSent, by rw [h]; rfl⟩
    · split
      · exact ⟨_, m, _, _, by rw [h]; rfl⟩
      · exact ⟨_, m, s.recs, _, by rw [h]; rfl⟩

@[simp] theorem requestResponse_pwrOk (k : Nat) (t : Tag) (e : OutEntry) (a : Answer) (s : State) :
    (requestResponse k t e a s).pwrOk = s.pwrOk := by
  obtain ⟨_, _, _, _, h⟩ := requestResponse_frame k t e a s
  rw [h]

@[simp] theorem requestResponse_prstN (k : Nat) (t : Tag) (e : OutEntry) (a : Answer) (s : State) :
    (requestResponse k t e a s).prstN = s.prstN := by
  obtain ⟨_, _, _, _, h⟩ := requestResponse_frame k t e a s
  rw [h]

@[simp] theorem requestResponse_fwe (k : Nat) (t : Tag) (e : OutEntry) (a : Answer) (s : State) :
    (requestResponse k t e a s).fwe = s.fwe := by
  obtain ⟨_, _, _, _, h⟩ := requestResponse_frame k t e a s
  rw [h]

@[simp] theorem requestResponse_fuseArray (k : Nat) (t : Tag) (e : OutEntry) (a : Answer) (s : State) :
    (requestResponse k t e a s).fuseArray = s.fuseArray := by
  obtain ⟨_, _, _, _, h⟩ := requestResponse_frame k t e a s
  rw [h]

@[simp] theorem requestResponse_clock (k : Nat) (t : Tag) (e : OutEntry) (a : Answer) (s : State) :
    (requestResponse k t e a s).clock = s.clock := by
  obtain ⟨_, _, _, _, h⟩ := requestResponse_frame k t e a s
  rw [h]

@[simp] theorem requestResponse_table (k : Nat) (t : Tag) (e : OutEntry) (a : Answer) (s : State) :
    (requestResponse k t e a s).table = s.table := by
  obtain ⟨_, _, _, _, h⟩ := requestResponse_frame k t e a s
  rw [h]

@[simp] theorem requestResponse_arb (k : Nat) (t : Tag) (e : OutEntry) (a : Answer) (s : State) :
    (requestResponse k t e a s).arb = s.arb := by
  obtain ⟨_, _, _, _, h⟩ := requestResponse_frame k t e a s
  rw [h]

@[simp] theorem requestResponse_watch (k : Nat) (t : Tag) (e : OutEntry) (a : Answer) (s : State) :
    (requestResponse k t e a s).watch = s.watch := by
  obtain ⟨_, _, _, _, h⟩ := requestResponse_frame k t e a s
  rw [h]

@[simp] theorem requestResponse_patrol (k : Nat) (t : Tag) (e : OutEntry) (a : Answer) (s : State) :
    (requestResponse k t e a s).patrol = s.patrol := by
  obtain ⟨_, _, _, _, h⟩ := requestResponse_frame k t e a s
  rw [h]

@[simp] theorem requestResponse_fuse (k : Nat) (t : Tag) (e : OutEntry) (a : Answer) (s : State) :
    (requestResponse k t e a s).fuse = s.fuse := by
  obtain ⟨_, _, _, _, h⟩ := requestResponse_frame k t e a s
  rw [h]

@[simp] theorem requestResponse_port (k : Nat) (t : Tag) (e : OutEntry) (a : Answer) (s : State) :
    (requestResponse k t e a s).port = s.port := by
  obtain ⟨_, _, _, _, h⟩ := requestResponse_frame k t e a s
  rw [h]

@[simp] theorem requestResponse_downSent (k : Nat) (t : Tag) (e : OutEntry) (a : Answer) (s : State) :
    (requestResponse k t e a s).downSent = s.downSent := by
  obtain ⟨_, _, _, _, h⟩ := requestResponse_frame k t e a s
  rw [h]

@[simp] theorem requestResponse_pending (k : Nat) (t : Tag) (e : OutEntry) (a : Answer) (s : State) :
    (requestResponse k t e a s).pending = s.pending := by
  obtain ⟨_, _, _, _, h⟩ := requestResponse_frame k t e a s
  rw [h]

/-! ### State.freeSuspect -/

/-- Freeing a suspect entry changes the error watch unit alone (R115). -/
theorem State.freeSuspect_frame (s : State) (p : Nat) :
    ∃ (w : WatchUnit),
      (s.freeSuspect p) = { s with watch := w } := by
  unfold State.freeSuspect
  split
  · exact ⟨_, rfl⟩
  · exact ⟨s.watch, rfl⟩

@[simp] theorem State.freeSuspect_pwrOk (s : State) (p : Nat) :
    (s.freeSuspect p).pwrOk = s.pwrOk := by
  obtain ⟨_, h⟩ := State.freeSuspect_frame s p
  rw [h]

@[simp] theorem State.freeSuspect_prstN (s : State) (p : Nat) :
    (s.freeSuspect p).prstN = s.prstN := by
  obtain ⟨_, h⟩ := State.freeSuspect_frame s p
  rw [h]

@[simp] theorem State.freeSuspect_fwe (s : State) (p : Nat) :
    (s.freeSuspect p).fwe = s.fwe := by
  obtain ⟨_, h⟩ := State.freeSuspect_frame s p
  rw [h]

@[simp] theorem State.freeSuspect_fuseArray (s : State) (p : Nat) :
    (s.freeSuspect p).fuseArray = s.fuseArray := by
  obtain ⟨_, h⟩ := State.freeSuspect_frame s p
  rw [h]

@[simp] theorem State.freeSuspect_clock (s : State) (p : Nat) :
    (s.freeSuspect p).clock = s.clock := by
  obtain ⟨_, h⟩ := State.freeSuspect_frame s p
  rw [h]

@[simp] theorem State.freeSuspect_table (s : State) (p : Nat) :
    (s.freeSuspect p).table = s.table := by
  obtain ⟨_, h⟩ := State.freeSuspect_frame s p
  rw [h]

@[simp] theorem State.freeSuspect_req (s : State) (p : Nat) :
    (s.freeSuspect p).req = s.req := by
  obtain ⟨_, h⟩ := State.freeSuspect_frame s p
  rw [h]

@[simp] theorem State.freeSuspect_arb (s : State) (p : Nat) :
    (s.freeSuspect p).arb = s.arb := by
  obtain ⟨_, h⟩ := State.freeSuspect_frame s p
  rw [h]

@[simp] theorem State.freeSuspect_mig (s : State) (p : Nat) :
    (s.freeSuspect p).mig = s.mig := by
  obtain ⟨_, h⟩ := State.freeSuspect_frame s p
  rw [h]

@[simp] theorem State.freeSuspect_patrol (s : State) (p : Nat) :
    (s.freeSuspect p).patrol = s.patrol := by
  obtain ⟨_, h⟩ := State.freeSuspect_frame s p
  rw [h]

@[simp] theorem State.freeSuspect_recs (s : State) (p : Nat) :
    (s.freeSuspect p).recs = s.recs := by
  obtain ⟨_, h⟩ := State.freeSuspect_frame s p
  rw [h]

@[simp] theorem State.freeSuspect_fuse (s : State) (p : Nat) :
    (s.freeSuspect p).fuse = s.fuse := by
  obtain ⟨_, h⟩ := State.freeSuspect_frame s p
  rw [h]

@[simp] theorem State.freeSuspect_port (s : State) (p : Nat) :
    (s.freeSuspect p).port = s.port := by
  obtain ⟨_, h⟩ := State.freeSuspect_frame s p
  rw [h]

@[simp] theorem State.freeSuspect_upSent (s : State) (p : Nat) :
    (s.freeSuspect p).upSent = s.upSent := by
  obtain ⟨_, h⟩ := State.freeSuspect_frame s p
  rw [h]

@[simp] theorem State.freeSuspect_downSent (s : State) (p : Nat) :
    (s.freeSuspect p).downSent = s.downSent := by
  obtain ⟨_, h⟩ := State.freeSuspect_frame s p
  rw [h]

@[simp] theorem State.freeSuspect_pending (s : State) (p : Nat) :
    (s.freeSuspect p).pending = s.pending := by
  obtain ⟨_, h⟩ := State.freeSuspect_frame s p
  rw [h]

/-! ### State.commitMove -/

/-- The commit changes the table, the migration unit, the suspect table and the records (R85). -/
theorem State.commitMove_frame (s : State) (x : Move) :
    ∃ (t : List Entry) (m : MigrationUnit) (w : WatchUnit) (c : RecordUnit),
      (s.commitMove x) = { s with table := t, mig := m, watch := w, recs := c } := by
  unfold State.commitMove
  obtain ⟨w, h⟩ := State.freeSuspect_frame { s with table := commitTable s.limit s.table x } x.source
  refine ⟨commitTable s.limit s.table x, { s.mig with context := .idle, startEvent := true }, w,
    { s.recs with
      handed := s.recs.handed ++
        [{ producer := .migration, body := .migDone x.req.l x.source x.target, action := none }] }, ?_⟩
  rw [h]
  simp only [State.hand, State.toIdle, State.setMig]

@[simp] theorem State.commitMove_pwrOk (s : State) (x : Move) :
    (s.commitMove x).pwrOk = s.pwrOk := by
  obtain ⟨_, _, _, _, h⟩ := State.commitMove_frame s x
  rw [h]

@[simp] theorem State.commitMove_prstN (s : State) (x : Move) :
    (s.commitMove x).prstN = s.prstN := by
  obtain ⟨_, _, _, _, h⟩ := State.commitMove_frame s x
  rw [h]

@[simp] theorem State.commitMove_fwe (s : State) (x : Move) :
    (s.commitMove x).fwe = s.fwe := by
  obtain ⟨_, _, _, _, h⟩ := State.commitMove_frame s x
  rw [h]

@[simp] theorem State.commitMove_fuseArray (s : State) (x : Move) :
    (s.commitMove x).fuseArray = s.fuseArray := by
  obtain ⟨_, _, _, _, h⟩ := State.commitMove_frame s x
  rw [h]

@[simp] theorem State.commitMove_clock (s : State) (x : Move) :
    (s.commitMove x).clock = s.clock := by
  obtain ⟨_, _, _, _, h⟩ := State.commitMove_frame s x
  rw [h]

@[simp] theorem State.commitMove_req (s : State) (x : Move) :
    (s.commitMove x).req = s.req := by
  obtain ⟨_, _, _, _, h⟩ := State.commitMove_frame s x
  rw [h]

@[simp] theorem State.commitMove_arb (s : State) (x : Move) :
    (s.commitMove x).arb = s.arb := by
  obtain ⟨_, _, _, _, h⟩ := State.commitMove_frame s x
  rw [h]

@[simp] theorem State.commitMove_patrol (s : State) (x : Move) :
    (s.commitMove x).patrol = s.patrol := by
  obtain ⟨_, _, _, _, h⟩ := State.commitMove_frame s x
  rw [h]

@[simp] theorem State.commitMove_fuse (s : State) (x : Move) :
    (s.commitMove x).fuse = s.fuse := by
  obtain ⟨_, _, _, _, h⟩ := State.commitMove_frame s x
  rw [h]

@[simp] theorem State.commitMove_port (s : State) (x : Move) :
    (s.commitMove x).port = s.port := by
  obtain ⟨_, _, _, _, h⟩ := State.commitMove_frame s x
  rw [h]

@[simp] theorem State.commitMove_upSent (s : State) (x : Move) :
    (s.commitMove x).upSent = s.upSent := by
  obtain ⟨_, _, _, _, h⟩ := State.commitMove_frame s x
  rw [h]

@[simp] theorem State.commitMove_downSent (s : State) (x : Move) :
    (s.commitMove x).downSent = s.downSent := by
  obtain ⟨_, _, _, _, h⟩ := State.commitMove_frame s x
  rw [h]

@[simp] theorem State.commitMove_pending (s : State) (x : Move) :
    (s.commitMove x).pending = s.pending := by
  obtain ⟨_, _, _, _, h⟩ := State.commitMove_frame s x
  rw [h]

/-! ### State.retryDecision -/

/-- The retry decision changes the migration unit and the records (R88). -/
theorem State.retryDecision_frame (s : State) (x : RetireRequest) :
    ∃ (m : MigrationUnit) (c : RecordUnit),
      (s.retryDecision x) = { s with mig := m, recs := c } := by
  unfold State.retryDecision
  split
  · exact ⟨s.mig, _, rfl⟩
  · exact ⟨_, s.recs, rfl⟩

@[simp] theorem State.retryDecision_pwrOk (s : State) (x : RetireRequest) :
    (s.retryDecision x).pwrOk = s.pwrOk := by
  obtain ⟨_, _, h⟩ := State.retryDecision_frame s x
  rw [h]

@[simp] theorem State.retryDecision_prstN (s : State) (x : RetireRequest) :
    (s.retryDecision x).prstN = s.prstN := by
  obtain ⟨_, _, h⟩ := State.retryDecision_frame s x
  rw [h]

@[simp] theorem State.retryDecision_fwe (s : State) (x : RetireRequest) :
    (s.retryDecision x).fwe = s.fwe := by
  obtain ⟨_, _, h⟩ := State.retryDecision_frame s x
  rw [h]

@[simp] theorem State.retryDecision_fuseArray (s : State) (x : RetireRequest) :
    (s.retryDecision x).fuseArray = s.fuseArray := by
  obtain ⟨_, _, h⟩ := State.retryDecision_frame s x
  rw [h]

@[simp] theorem State.retryDecision_clock (s : State) (x : RetireRequest) :
    (s.retryDecision x).clock = s.clock := by
  obtain ⟨_, _, h⟩ := State.retryDecision_frame s x
  rw [h]

@[simp] theorem State.retryDecision_table (s : State) (x : RetireRequest) :
    (s.retryDecision x).table = s.table := by
  obtain ⟨_, _, h⟩ := State.retryDecision_frame s x
  rw [h]

@[simp] theorem State.retryDecision_req (s : State) (x : RetireRequest) :
    (s.retryDecision x).req = s.req := by
  obtain ⟨_, _, h⟩ := State.retryDecision_frame s x
  rw [h]

@[simp] theorem State.retryDecision_arb (s : State) (x : RetireRequest) :
    (s.retryDecision x).arb = s.arb := by
  obtain ⟨_, _, h⟩ := State.retryDecision_frame s x
  rw [h]

@[simp] theorem State.retryDecision_watch (s : State) (x : RetireRequest) :
    (s.retryDecision x).watch = s.watch := by
  obtain ⟨_, _, h⟩ := State.retryDecision_frame s x
  rw [h]

@[simp] theorem State.retryDecision_patrol (s : State) (x : RetireRequest) :
    (s.retryDecision x).patrol = s.patrol := by
  obtain ⟨_, _, h⟩ := State.retryDecision_frame s x
  rw [h]

@[simp] theorem State.retryDecision_fuse (s : State) (x : RetireRequest) :
    (s.retryDecision x).fuse = s.fuse := by
  obtain ⟨_, _, h⟩ := State.retryDecision_frame s x
  rw [h]

@[simp] theorem State.retryDecision_port (s : State) (x : RetireRequest) :
    (s.retryDecision x).port = s.port := by
  obtain ⟨_, _, h⟩ := State.retryDecision_frame s x
  rw [h]

@[simp] theorem State.retryDecision_upSent (s : State) (x : RetireRequest) :
    (s.retryDecision x).upSent = s.upSent := by
  obtain ⟨_, _, h⟩ := State.retryDecision_frame s x
  rw [h]

@[simp] theorem State.retryDecision_downSent (s : State) (x : RetireRequest) :
    (s.retryDecision x).downSent = s.downSent := by
  obtain ⟨_, _, h⟩ := State.retryDecision_frame s x
  rw [h]

@[simp] theorem State.retryDecision_pending (s : State) (x : RetireRequest) :
    (s.retryDecision x).pending = s.pending := by
  obtain ⟨_, _, h⟩ := State.retryDecision_frame s x
  rw [h]

/-! ### State.failTarget -/

/-- A target failure changes the table, the request unit, the migration unit and the records (R87). -/
theorem State.failTarget_frame (s : State) (x : Move) (y : Option Lock) (z : TargetCause) (f : Option Nat) :
    ∃ (t : List Entry) (r : RequestUnit) (m : MigrationUnit) (c : RecordUnit),
      (s.failTarget x y z f) = { s with table := t, req := r, mig := m, recs := c } := by
  unfold State.failTarget
  obtain ⟨r, h⟩ := State.releaseLock_frame s y
  rw [h]
  obtain ⟨m, c, h2⟩ := State.retryDecision_frame
    (((State.retireTarget { s with req := r } x.target).hand .migration (.targetBad x.req.l x.target z) none f)) x.req
  rw [h2]
  exact ⟨_, _, _, _, rfl⟩

@[simp] theorem State.failTarget_pwrOk (s : State) (x : Move) (y : Option Lock) (z : TargetCause) (f : Option Nat) :
    (s.failTarget x y z f).pwrOk = s.pwrOk := by
  obtain ⟨_, _, _, _, h⟩ := State.failTarget_frame s x y z f
  rw [h]

@[simp] theorem State.failTarget_prstN (s : State) (x : Move) (y : Option Lock) (z : TargetCause) (f : Option Nat) :
    (s.failTarget x y z f).prstN = s.prstN := by
  obtain ⟨_, _, _, _, h⟩ := State.failTarget_frame s x y z f
  rw [h]

@[simp] theorem State.failTarget_fwe (s : State) (x : Move) (y : Option Lock) (z : TargetCause) (f : Option Nat) :
    (s.failTarget x y z f).fwe = s.fwe := by
  obtain ⟨_, _, _, _, h⟩ := State.failTarget_frame s x y z f
  rw [h]

@[simp] theorem State.failTarget_fuseArray (s : State) (x : Move) (y : Option Lock) (z : TargetCause) (f : Option Nat) :
    (s.failTarget x y z f).fuseArray = s.fuseArray := by
  obtain ⟨_, _, _, _, h⟩ := State.failTarget_frame s x y z f
  rw [h]

@[simp] theorem State.failTarget_clock (s : State) (x : Move) (y : Option Lock) (z : TargetCause) (f : Option Nat) :
    (s.failTarget x y z f).clock = s.clock := by
  obtain ⟨_, _, _, _, h⟩ := State.failTarget_frame s x y z f
  rw [h]

@[simp] theorem State.failTarget_arb (s : State) (x : Move) (y : Option Lock) (z : TargetCause) (f : Option Nat) :
    (s.failTarget x y z f).arb = s.arb := by
  obtain ⟨_, _, _, _, h⟩ := State.failTarget_frame s x y z f
  rw [h]

@[simp] theorem State.failTarget_watch (s : State) (x : Move) (y : Option Lock) (z : TargetCause) (f : Option Nat) :
    (s.failTarget x y z f).watch = s.watch := by
  obtain ⟨_, _, _, _, h⟩ := State.failTarget_frame s x y z f
  rw [h]

@[simp] theorem State.failTarget_patrol (s : State) (x : Move) (y : Option Lock) (z : TargetCause) (f : Option Nat) :
    (s.failTarget x y z f).patrol = s.patrol := by
  obtain ⟨_, _, _, _, h⟩ := State.failTarget_frame s x y z f
  rw [h]

@[simp] theorem State.failTarget_fuse (s : State) (x : Move) (y : Option Lock) (z : TargetCause) (f : Option Nat) :
    (s.failTarget x y z f).fuse = s.fuse := by
  obtain ⟨_, _, _, _, h⟩ := State.failTarget_frame s x y z f
  rw [h]

@[simp] theorem State.failTarget_port (s : State) (x : Move) (y : Option Lock) (z : TargetCause) (f : Option Nat) :
    (s.failTarget x y z f).port = s.port := by
  obtain ⟨_, _, _, _, h⟩ := State.failTarget_frame s x y z f
  rw [h]

@[simp] theorem State.failTarget_upSent (s : State) (x : Move) (y : Option Lock) (z : TargetCause) (f : Option Nat) :
    (s.failTarget x y z f).upSent = s.upSent := by
  obtain ⟨_, _, _, _, h⟩ := State.failTarget_frame s x y z f
  rw [h]

@[simp] theorem State.failTarget_downSent (s : State) (x : Move) (y : Option Lock) (z : TargetCause) (f : Option Nat) :
    (s.failTarget x y z f).downSent = s.downSent := by
  obtain ⟨_, _, _, _, h⟩ := State.failTarget_frame s x y z f
  rw [h]

@[simp] theorem State.failTarget_pending (s : State) (x : Move) (y : Option Lock) (z : TargetCause) (f : Option Nat) :
    (s.failTarget x y z f).pending = s.pending := by
  obtain ⟨_, _, _, _, h⟩ := State.failTarget_frame s x y z f
  rw [h]

/-! ### State.stopMove -/

/-- A migration stopped without fault changes the table, the request unit and the records (R12). -/
theorem State.stopMove_frame (s : State) (x : Move) (y : Option Lock) (z : RecordBody) :
    ∃ (t : List Entry) (r : RequestUnit) (c : RecordUnit),
      (s.stopMove x y z) = { s with table := t, req := r, recs := c } := by
  unfold State.stopMove
  obtain ⟨r, h⟩ := State.releaseLock_frame s y
  rw [h]
  exact ⟨_, _, _, rfl⟩

@[simp] theorem State.stopMove_pwrOk (s : State) (x : Move) (y : Option Lock) (z : RecordBody) :
    (s.stopMove x y z).pwrOk = s.pwrOk := by
  obtain ⟨_, _, _, h⟩ := State.stopMove_frame s x y z
  rw [h]

@[simp] theorem State.stopMove_prstN (s : State) (x : Move) (y : Option Lock) (z : RecordBody) :
    (s.stopMove x y z).prstN = s.prstN := by
  obtain ⟨_, _, _, h⟩ := State.stopMove_frame s x y z
  rw [h]

@[simp] theorem State.stopMove_fwe (s : State) (x : Move) (y : Option Lock) (z : RecordBody) :
    (s.stopMove x y z).fwe = s.fwe := by
  obtain ⟨_, _, _, h⟩ := State.stopMove_frame s x y z
  rw [h]

@[simp] theorem State.stopMove_fuseArray (s : State) (x : Move) (y : Option Lock) (z : RecordBody) :
    (s.stopMove x y z).fuseArray = s.fuseArray := by
  obtain ⟨_, _, _, h⟩ := State.stopMove_frame s x y z
  rw [h]

@[simp] theorem State.stopMove_clock (s : State) (x : Move) (y : Option Lock) (z : RecordBody) :
    (s.stopMove x y z).clock = s.clock := by
  obtain ⟨_, _, _, h⟩ := State.stopMove_frame s x y z
  rw [h]

@[simp] theorem State.stopMove_arb (s : State) (x : Move) (y : Option Lock) (z : RecordBody) :
    (s.stopMove x y z).arb = s.arb := by
  obtain ⟨_, _, _, h⟩ := State.stopMove_frame s x y z
  rw [h]

@[simp] theorem State.stopMove_mig (s : State) (x : Move) (y : Option Lock) (z : RecordBody) :
    (s.stopMove x y z).mig = s.mig := by
  obtain ⟨_, _, _, h⟩ := State.stopMove_frame s x y z
  rw [h]

@[simp] theorem State.stopMove_watch (s : State) (x : Move) (y : Option Lock) (z : RecordBody) :
    (s.stopMove x y z).watch = s.watch := by
  obtain ⟨_, _, _, h⟩ := State.stopMove_frame s x y z
  rw [h]

@[simp] theorem State.stopMove_patrol (s : State) (x : Move) (y : Option Lock) (z : RecordBody) :
    (s.stopMove x y z).patrol = s.patrol := by
  obtain ⟨_, _, _, h⟩ := State.stopMove_frame s x y z
  rw [h]

@[simp] theorem State.stopMove_fuse (s : State) (x : Move) (y : Option Lock) (z : RecordBody) :
    (s.stopMove x y z).fuse = s.fuse := by
  obtain ⟨_, _, _, h⟩ := State.stopMove_frame s x y z
  rw [h]

@[simp] theorem State.stopMove_port (s : State) (x : Move) (y : Option Lock) (z : RecordBody) :
    (s.stopMove x y z).port = s.port := by
  obtain ⟨_, _, _, h⟩ := State.stopMove_frame s x y z
  rw [h]

@[simp] theorem State.stopMove_upSent (s : State) (x : Move) (y : Option Lock) (z : RecordBody) :
    (s.stopMove x y z).upSent = s.upSent := by
  obtain ⟨_, _, _, h⟩ := State.stopMove_frame s x y z
  rw [h]

@[simp] theorem State.stopMove_downSent (s : State) (x : Move) (y : Option Lock) (z : RecordBody) :
    (s.stopMove x y z).downSent = s.downSent := by
  obtain ⟨_, _, _, h⟩ := State.stopMove_frame s x y z
  rw [h]

@[simp] theorem State.stopMove_pending (s : State) (x : Move) (y : Option Lock) (z : RecordBody) :
    (s.stopMove x y z).pending = s.pending := by
  obtain ⟨_, _, _, h⟩ := State.stopMove_frame s x y z
  rw [h]

/-! ### State.tryRead -/

/-- The claim's drain changes the migration unit alone (R77). -/
theorem State.tryRead_frame (s : State) :
    ∃ (m : MigrationUnit),
      s.tryRead = { s with mig := m } := by
  unfold State.tryRead
  split
  · split
    · exact ⟨s.mig, rfl⟩
    · exact ⟨_, rfl⟩
  · exact ⟨s.mig, rfl⟩

@[simp] theorem State.tryRead_pwrOk (s : State) :
    s.tryRead.pwrOk = s.pwrOk := by
  obtain ⟨_, h⟩ := State.tryRead_frame s
  rw [h]

@[simp] theorem State.tryRead_prstN (s : State) :
    s.tryRead.prstN = s.prstN := by
  obtain ⟨_, h⟩ := State.tryRead_frame s
  rw [h]

@[simp] theorem State.tryRead_fwe (s : State) :
    s.tryRead.fwe = s.fwe := by
  obtain ⟨_, h⟩ := State.tryRead_frame s
  rw [h]

@[simp] theorem State.tryRead_fuseArray (s : State) :
    s.tryRead.fuseArray = s.fuseArray := by
  obtain ⟨_, h⟩ := State.tryRead_frame s
  rw [h]

@[simp] theorem State.tryRead_clock (s : State) :
    s.tryRead.clock = s.clock := by
  obtain ⟨_, h⟩ := State.tryRead_frame s
  rw [h]

@[simp] theorem State.tryRead_table (s : State) :
    s.tryRead.table = s.table := by
  obtain ⟨_, h⟩ := State.tryRead_frame s
  rw [h]

@[simp] theorem State.tryRead_req (s : State) :
    s.tryRead.req = s.req := by
  obtain ⟨_, h⟩ := State.tryRead_frame s
  rw [h]

@[simp] theorem State.tryRead_arb (s : State) :
    s.tryRead.arb = s.arb := by
  obtain ⟨_, h⟩ := State.tryRead_frame s
  rw [h]

@[simp] theorem State.tryRead_watch (s : State) :
    s.tryRead.watch = s.watch := by
  obtain ⟨_, h⟩ := State.tryRead_frame s
  rw [h]

@[simp] theorem State.tryRead_patrol (s : State) :
    s.tryRead.patrol = s.patrol := by
  obtain ⟨_, h⟩ := State.tryRead_frame s
  rw [h]

@[simp] theorem State.tryRead_recs (s : State) :
    s.tryRead.recs = s.recs := by
  obtain ⟨_, h⟩ := State.tryRead_frame s
  rw [h]

@[simp] theorem State.tryRead_fuse (s : State) :
    s.tryRead.fuse = s.fuse := by
  obtain ⟨_, h⟩ := State.tryRead_frame s
  rw [h]

@[simp] theorem State.tryRead_port (s : State) :
    s.tryRead.port = s.port := by
  obtain ⟨_, h⟩ := State.tryRead_frame s
  rw [h]

@[simp] theorem State.tryRead_upSent (s : State) :
    s.tryRead.upSent = s.upSent := by
  obtain ⟨_, h⟩ := State.tryRead_frame s
  rw [h]

@[simp] theorem State.tryRead_downSent (s : State) :
    s.tryRead.downSent = s.downSent := by
  obtain ⟨_, h⟩ := State.tryRead_frame s
  rw [h]

@[simp] theorem State.tryRead_pending (s : State) :
    s.tryRead.pending = s.pending := by
  obtain ⟨_, h⟩ := State.tryRead_frame s
  rw [h]

/-! ### State.tryCommit -/

/-- The drain before commit changes what a commit changes (R84). -/
theorem State.tryCommit_frame (s : State) :
    ∃ (t : List Entry) (m : MigrationUnit) (w : WatchUnit) (c : RecordUnit),
      s.tryCommit = { s with table := t, mig := m, watch := w, recs := c } := by
  unfold State.tryCommit
  split
  · split
    · exact ⟨s.table, s.mig, s.watch, s.recs, rfl⟩
    · exact State.commitMove_frame s _
  · exact ⟨s.table, s.mig, s.watch, s.recs, rfl⟩

@[simp] theorem State.tryCommit_pwrOk (s : State) :
    s.tryCommit.pwrOk = s.pwrOk := by
  obtain ⟨_, _, _, _, h⟩ := State.tryCommit_frame s
  rw [h]

@[simp] theorem State.tryCommit_prstN (s : State) :
    s.tryCommit.prstN = s.prstN := by
  obtain ⟨_, _, _, _, h⟩ := State.tryCommit_frame s
  rw [h]

@[simp] theorem State.tryCommit_fwe (s : State) :
    s.tryCommit.fwe = s.fwe := by
  obtain ⟨_, _, _, _, h⟩ := State.tryCommit_frame s
  rw [h]

@[simp] theorem State.tryCommit_fuseArray (s : State) :
    s.tryCommit.fuseArray = s.fuseArray := by
  obtain ⟨_, _, _, _, h⟩ := State.tryCommit_frame s
  rw [h]

@[simp] theorem State.tryCommit_clock (s : State) :
    s.tryCommit.clock = s.clock := by
  obtain ⟨_, _, _, _, h⟩ := State.tryCommit_frame s
  rw [h]

@[simp] theorem State.tryCommit_req (s : State) :
    s.tryCommit.req = s.req := by
  obtain ⟨_, _, _, _, h⟩ := State.tryCommit_frame s
  rw [h]

@[simp] theorem State.tryCommit_arb (s : State) :
    s.tryCommit.arb = s.arb := by
  obtain ⟨_, _, _, _, h⟩ := State.tryCommit_frame s
  rw [h]

@[simp] theorem State.tryCommit_patrol (s : State) :
    s.tryCommit.patrol = s.patrol := by
  obtain ⟨_, _, _, _, h⟩ := State.tryCommit_frame s
  rw [h]

@[simp] theorem State.tryCommit_fuse (s : State) :
    s.tryCommit.fuse = s.fuse := by
  obtain ⟨_, _, _, _, h⟩ := State.tryCommit_frame s
  rw [h]

@[simp] theorem State.tryCommit_port (s : State) :
    s.tryCommit.port = s.port := by
  obtain ⟨_, _, _, _, h⟩ := State.tryCommit_frame s
  rw [h]

@[simp] theorem State.tryCommit_upSent (s : State) :
    s.tryCommit.upSent = s.upSent := by
  obtain ⟨_, _, _, _, h⟩ := State.tryCommit_frame s
  rw [h]

@[simp] theorem State.tryCommit_downSent (s : State) :
    s.tryCommit.downSent = s.downSent := by
  obtain ⟨_, _, _, _, h⟩ := State.tryCommit_frame s
  rw [h]

@[simp] theorem State.tryCommit_pending (s : State) :
    s.tryCommit.pending = s.pending := by
  obtain ⟨_, _, _, _, h⟩ := State.tryCommit_frame s
  rw [h]

/-! ### State.writeRemoved -/

/-- The removal of a request-path write changes what a commit changes (R53). -/
theorem State.writeRemoved_frame (s : State) (x : OutEntry) :
    ∃ (t : List Entry) (m : MigrationUnit) (w : WatchUnit) (c : RecordUnit),
      (s.writeRemoved x) = { s with table := t, mig := m, watch := w, recs := c } := by
  unfold State.writeRemoved
  split
  · split
    · split
      · obtain ⟨m, h⟩ := State.tryRead_frame s
        exact ⟨s.table, m, s.watch, s.recs, h⟩
      · exact ⟨s.table, s.mig, s.watch, s.recs, rfl⟩
    · split
      · exact State.tryCommit_frame s
      · exact ⟨s.table, s.mig, s.watch, s.recs, rfl⟩
    · exact ⟨s.table, s.mig, s.watch, s.recs, rfl⟩
  · exact ⟨s.table, s.mig, s.watch, s.recs, rfl⟩

@[simp] theorem State.writeRemoved_pwrOk (s : State) (x : OutEntry) :
    (s.writeRemoved x).pwrOk = s.pwrOk := by
  obtain ⟨_, _, _, _, h⟩ := State.writeRemoved_frame s x
  rw [h]

@[simp] theorem State.writeRemoved_prstN (s : State) (x : OutEntry) :
    (s.writeRemoved x).prstN = s.prstN := by
  obtain ⟨_, _, _, _, h⟩ := State.writeRemoved_frame s x
  rw [h]

@[simp] theorem State.writeRemoved_fwe (s : State) (x : OutEntry) :
    (s.writeRemoved x).fwe = s.fwe := by
  obtain ⟨_, _, _, _, h⟩ := State.writeRemoved_frame s x
  rw [h]

@[simp] theorem State.writeRemoved_fuseArray (s : State) (x : OutEntry) :
    (s.writeRemoved x).fuseArray = s.fuseArray := by
  obtain ⟨_, _, _, _, h⟩ := State.writeRemoved_frame s x
  rw [h]

@[simp] theorem State.writeRemoved_clock (s : State) (x : OutEntry) :
    (s.writeRemoved x).clock = s.clock := by
  obtain ⟨_, _, _, _, h⟩ := State.writeRemoved_frame s x
  rw [h]

@[simp] theorem State.writeRemoved_req (s : State) (x : OutEntry) :
    (s.writeRemoved x).req = s.req := by
  obtain ⟨_, _, _, _, h⟩ := State.writeRemoved_frame s x
  rw [h]

@[simp] theorem State.writeRemoved_arb (s : State) (x : OutEntry) :
    (s.writeRemoved x).arb = s.arb := by
  obtain ⟨_, _, _, _, h⟩ := State.writeRemoved_frame s x
  rw [h]

@[simp] theorem State.writeRemoved_patrol (s : State) (x : OutEntry) :
    (s.writeRemoved x).patrol = s.patrol := by
  obtain ⟨_, _, _, _, h⟩ := State.writeRemoved_frame s x
  rw [h]

@[simp] theorem State.writeRemoved_fuse (s : State) (x : OutEntry) :
    (s.writeRemoved x).fuse = s.fuse := by
  obtain ⟨_, _, _, _, h⟩ := State.writeRemoved_frame s x
  rw [h]

@[simp] theorem State.writeRemoved_port (s : State) (x : OutEntry) :
    (s.writeRemoved x).port = s.port := by
  obtain ⟨_, _, _, _, h⟩ := State.writeRemoved_frame s x
  rw [h]

@[simp] theorem State.writeRemoved_upSent (s : State) (x : OutEntry) :
    (s.writeRemoved x).upSent = s.upSent := by
  obtain ⟨_, _, _, _, h⟩ := State.writeRemoved_frame s x
  rw [h]

@[simp] theorem State.writeRemoved_downSent (s : State) (x : OutEntry) :
    (s.writeRemoved x).downSent = s.downSent := by
  obtain ⟨_, _, _, _, h⟩ := State.writeRemoved_frame s x
  rw [h]

@[simp] theorem State.writeRemoved_pending (s : State) (x : OutEntry) :
    (s.writeRemoved x).pending = s.pending := by
  obtain ⟨_, _, _, _, h⟩ := State.writeRemoved_frame s x
  rw [h]

/-! ### State.handPoison -/

/-- Poisoned lines give records alone (R79). -/
theorem State.handPoison_frame (s : State) (l p x : Nat) (y : List WriteLine) :
    ∃ (c : RecordUnit),
      (s.handPoison l p x y) = { s with recs := c } := by
  unfold State.handPoison
  generalize y.zipIdx = z
  induction z generalizing s with
  | nil => exact ⟨s.recs, rfl⟩
  | cons v z ih =>
    rw [List.foldl_cons]
    split
    · obtain ⟨c, h⟩ := ih (s.hand .migration (.copyPoison l (4 * p + v.2) x))
      exact ⟨c, by rw [h]; rfl⟩
    · exact ih s

@[simp] theorem State.handPoison_pwrOk (s : State) (l p x : Nat) (y : List WriteLine) :
    (s.handPoison l p x y).pwrOk = s.pwrOk := by
  obtain ⟨_, h⟩ := State.handPoison_frame s l p x y
  rw [h]

@[simp] theorem State.handPoison_prstN (s : State) (l p x : Nat) (y : List WriteLine) :
    (s.handPoison l p x y).prstN = s.prstN := by
  obtain ⟨_, h⟩ := State.handPoison_frame s l p x y
  rw [h]

@[simp] theorem State.handPoison_fwe (s : State) (l p x : Nat) (y : List WriteLine) :
    (s.handPoison l p x y).fwe = s.fwe := by
  obtain ⟨_, h⟩ := State.handPoison_frame s l p x y
  rw [h]

@[simp] theorem State.handPoison_fuseArray (s : State) (l p x : Nat) (y : List WriteLine) :
    (s.handPoison l p x y).fuseArray = s.fuseArray := by
  obtain ⟨_, h⟩ := State.handPoison_frame s l p x y
  rw [h]

@[simp] theorem State.handPoison_clock (s : State) (l p x : Nat) (y : List WriteLine) :
    (s.handPoison l p x y).clock = s.clock := by
  obtain ⟨_, h⟩ := State.handPoison_frame s l p x y
  rw [h]

@[simp] theorem State.handPoison_table (s : State) (l p x : Nat) (y : List WriteLine) :
    (s.handPoison l p x y).table = s.table := by
  obtain ⟨_, h⟩ := State.handPoison_frame s l p x y
  rw [h]

@[simp] theorem State.handPoison_req (s : State) (l p x : Nat) (y : List WriteLine) :
    (s.handPoison l p x y).req = s.req := by
  obtain ⟨_, h⟩ := State.handPoison_frame s l p x y
  rw [h]

@[simp] theorem State.handPoison_arb (s : State) (l p x : Nat) (y : List WriteLine) :
    (s.handPoison l p x y).arb = s.arb := by
  obtain ⟨_, h⟩ := State.handPoison_frame s l p x y
  rw [h]

@[simp] theorem State.handPoison_mig (s : State) (l p x : Nat) (y : List WriteLine) :
    (s.handPoison l p x y).mig = s.mig := by
  obtain ⟨_, h⟩ := State.handPoison_frame s l p x y
  rw [h]

@[simp] theorem State.handPoison_watch (s : State) (l p x : Nat) (y : List WriteLine) :
    (s.handPoison l p x y).watch = s.watch := by
  obtain ⟨_, h⟩ := State.handPoison_frame s l p x y
  rw [h]

@[simp] theorem State.handPoison_patrol (s : State) (l p x : Nat) (y : List WriteLine) :
    (s.handPoison l p x y).patrol = s.patrol := by
  obtain ⟨_, h⟩ := State.handPoison_frame s l p x y
  rw [h]

@[simp] theorem State.handPoison_fuse (s : State) (l p x : Nat) (y : List WriteLine) :
    (s.handPoison l p x y).fuse = s.fuse := by
  obtain ⟨_, h⟩ := State.handPoison_frame s l p x y
  rw [h]

@[simp] theorem State.handPoison_port (s : State) (l p x : Nat) (y : List WriteLine) :
    (s.handPoison l p x y).port = s.port := by
  obtain ⟨_, h⟩ := State.handPoison_frame s l p x y
  rw [h]

@[simp] theorem State.handPoison_upSent (s : State) (l p x : Nat) (y : List WriteLine) :
    (s.handPoison l p x y).upSent = s.upSent := by
  obtain ⟨_, h⟩ := State.handPoison_frame s l p x y
  rw [h]

@[simp] theorem State.handPoison_downSent (s : State) (l p x : Nat) (y : List WriteLine) :
    (s.handPoison l p x y).downSent = s.downSent := by
  obtain ⟨_, h⟩ := State.handPoison_frame s l p x y
  rw [h]

@[simp] theorem State.handPoison_pending (s : State) (l p x : Nat) (y : List WriteLine) :
    (s.handPoison l p x y).pending = s.pending := by
  obtain ⟨_, h⟩ := State.handPoison_frame s l p x y
  rw [h]

/-! ### State.copyRead -/

/-- The awaited copy read changes the migration unit and the records (R79). -/
theorem State.copyRead_frame (s : State) (x : Move) (p : Nat) (a : Answer) :
    ∃ (m : MigrationUnit) (c : RecordUnit),
      (s.copyRead x p a) = { s with mig := m, recs := c } := by
  unfold State.copyRead
  obtain ⟨c, h⟩ := State.handPoison_frame s x.req.l p x.source (copyBuffer a)
  exact ⟨_, c, by rw [h]; rfl⟩

@[simp] theorem State.copyRead_pwrOk (s : State) (x : Move) (p : Nat) (a : Answer) :
    (s.copyRead x p a).pwrOk = s.pwrOk := by
  obtain ⟨_, _, h⟩ := State.copyRead_frame s x p a
  rw [h]

@[simp] theorem State.copyRead_prstN (s : State) (x : Move) (p : Nat) (a : Answer) :
    (s.copyRead x p a).prstN = s.prstN := by
  obtain ⟨_, _, h⟩ := State.copyRead_frame s x p a
  rw [h]

@[simp] theorem State.copyRead_fwe (s : State) (x : Move) (p : Nat) (a : Answer) :
    (s.copyRead x p a).fwe = s.fwe := by
  obtain ⟨_, _, h⟩ := State.copyRead_frame s x p a
  rw [h]

@[simp] theorem State.copyRead_fuseArray (s : State) (x : Move) (p : Nat) (a : Answer) :
    (s.copyRead x p a).fuseArray = s.fuseArray := by
  obtain ⟨_, _, h⟩ := State.copyRead_frame s x p a
  rw [h]

@[simp] theorem State.copyRead_clock (s : State) (x : Move) (p : Nat) (a : Answer) :
    (s.copyRead x p a).clock = s.clock := by
  obtain ⟨_, _, h⟩ := State.copyRead_frame s x p a
  rw [h]

@[simp] theorem State.copyRead_table (s : State) (x : Move) (p : Nat) (a : Answer) :
    (s.copyRead x p a).table = s.table := by
  obtain ⟨_, _, h⟩ := State.copyRead_frame s x p a
  rw [h]

@[simp] theorem State.copyRead_req (s : State) (x : Move) (p : Nat) (a : Answer) :
    (s.copyRead x p a).req = s.req := by
  obtain ⟨_, _, h⟩ := State.copyRead_frame s x p a
  rw [h]

@[simp] theorem State.copyRead_arb (s : State) (x : Move) (p : Nat) (a : Answer) :
    (s.copyRead x p a).arb = s.arb := by
  obtain ⟨_, _, h⟩ := State.copyRead_frame s x p a
  rw [h]

@[simp] theorem State.copyRead_watch (s : State) (x : Move) (p : Nat) (a : Answer) :
    (s.copyRead x p a).watch = s.watch := by
  obtain ⟨_, _, h⟩ := State.copyRead_frame s x p a
  rw [h]

@[simp] theorem State.copyRead_patrol (s : State) (x : Move) (p : Nat) (a : Answer) :
    (s.copyRead x p a).patrol = s.patrol := by
  obtain ⟨_, _, h⟩ := State.copyRead_frame s x p a
  rw [h]

@[simp] theorem State.copyRead_fuse (s : State) (x : Move) (p : Nat) (a : Answer) :
    (s.copyRead x p a).fuse = s.fuse := by
  obtain ⟨_, _, h⟩ := State.copyRead_frame s x p a
  rw [h]

@[simp] theorem State.copyRead_port (s : State) (x : Move) (p : Nat) (a : Answer) :
    (s.copyRead x p a).port = s.port := by
  obtain ⟨_, _, h⟩ := State.copyRead_frame s x p a
  rw [h]

@[simp] theorem State.copyRead_upSent (s : State) (x : Move) (p : Nat) (a : Answer) :
    (s.copyRead x p a).upSent = s.upSent := by
  obtain ⟨_, _, h⟩ := State.copyRead_frame s x p a
  rw [h]

@[simp] theorem State.copyRead_downSent (s : State) (x : Move) (p : Nat) (a : Answer) :
    (s.copyRead x p a).downSent = s.downSent := by
  obtain ⟨_, _, h⟩ := State.copyRead_frame s x p a
  rw [h]

@[simp] theorem State.copyRead_pending (s : State) (x : Move) (p : Nat) (a : Answer) :
    (s.copyRead x p a).pending = s.pending := by
  obtain ⟨_, _, h⟩ := State.copyRead_frame s x p a
  rw [h]

/-! ### State.copyWritten -/

/-- The awaited copy write's DONE changes the request unit and what a commit changes (R80). -/
theorem State.copyWritten_frame (s : State) (x : Move) (p : Nat) :
    ∃ (t : List Entry) (r : RequestUnit) (m : MigrationUnit) (w : WatchUnit) (c : RecordUnit),
      (s.copyWritten x p) = { s with table := t, req := r, mig := m, watch := w, recs := c } := by
  unfold State.copyWritten
  split
  · exact ⟨s.table, _, _, s.watch, s.recs, rfl⟩
  · obtain ⟨t, m, w, c, h⟩ := State.tryCommit_frame
      (s.setMig { s.mig with context := .finishing x }).returnHeld
    exact ⟨t, _, m, w, c, by rw [h]; rfl⟩

@[simp] theorem State.copyWritten_pwrOk (s : State) (x : Move) (p : Nat) :
    (s.copyWritten x p).pwrOk = s.pwrOk := by
  obtain ⟨_, _, _, _, _, h⟩ := State.copyWritten_frame s x p
  rw [h]

@[simp] theorem State.copyWritten_prstN (s : State) (x : Move) (p : Nat) :
    (s.copyWritten x p).prstN = s.prstN := by
  obtain ⟨_, _, _, _, _, h⟩ := State.copyWritten_frame s x p
  rw [h]

@[simp] theorem State.copyWritten_fwe (s : State) (x : Move) (p : Nat) :
    (s.copyWritten x p).fwe = s.fwe := by
  obtain ⟨_, _, _, _, _, h⟩ := State.copyWritten_frame s x p
  rw [h]

@[simp] theorem State.copyWritten_fuseArray (s : State) (x : Move) (p : Nat) :
    (s.copyWritten x p).fuseArray = s.fuseArray := by
  obtain ⟨_, _, _, _, _, h⟩ := State.copyWritten_frame s x p
  rw [h]

@[simp] theorem State.copyWritten_clock (s : State) (x : Move) (p : Nat) :
    (s.copyWritten x p).clock = s.clock := by
  obtain ⟨_, _, _, _, _, h⟩ := State.copyWritten_frame s x p
  rw [h]

@[simp] theorem State.copyWritten_arb (s : State) (x : Move) (p : Nat) :
    (s.copyWritten x p).arb = s.arb := by
  obtain ⟨_, _, _, _, _, h⟩ := State.copyWritten_frame s x p
  rw [h]

@[simp] theorem State.copyWritten_patrol (s : State) (x : Move) (p : Nat) :
    (s.copyWritten x p).patrol = s.patrol := by
  obtain ⟨_, _, _, _, _, h⟩ := State.copyWritten_frame s x p
  rw [h]

@[simp] theorem State.copyWritten_fuse (s : State) (x : Move) (p : Nat) :
    (s.copyWritten x p).fuse = s.fuse := by
  obtain ⟨_, _, _, _, _, h⟩ := State.copyWritten_frame s x p
  rw [h]

@[simp] theorem State.copyWritten_port (s : State) (x : Move) (p : Nat) :
    (s.copyWritten x p).port = s.port := by
  obtain ⟨_, _, _, _, _, h⟩ := State.copyWritten_frame s x p
  rw [h]

@[simp] theorem State.copyWritten_upSent (s : State) (x : Move) (p : Nat) :
    (s.copyWritten x p).upSent = s.upSent := by
  obtain ⟨_, _, _, _, _, h⟩ := State.copyWritten_frame s x p
  rw [h]

@[simp] theorem State.copyWritten_downSent (s : State) (x : Move) (p : Nat) :
    (s.copyWritten x p).downSent = s.downSent := by
  obtain ⟨_, _, _, _, _, h⟩ := State.copyWritten_frame s x p
  rw [h]

@[simp] theorem State.copyWritten_pending (s : State) (x : Move) (p : Nat) :
    (s.copyWritten x p).pending = s.pending := by
  obtain ⟨_, _, _, _, _, h⟩ := State.copyWritten_frame s x p
  rw [h]

/-! ### copyResponse -/

/-- A COPY response changes the request unit and what a commit changes (R79, R80, R82). -/
theorem copyResponse_frame (x : Tag) (a : Answer) (s : State) :
    ∃ (t : List Entry) (r : RequestUnit) (m : MigrationUnit) (w : WatchUnit) (c : RecordUnit),
      (copyResponse x a s) = { s with table := t, req := r, mig := m, watch := w, recs := c } := by
  unfold copyResponse
  split
  · split
    · obtain ⟨m, c, h⟩ := State.copyRead_frame s _ _ a
      exact ⟨s.table, s.req, m, s.watch, c, h⟩
    · exact ⟨s.table, s.req, s.mig, s.watch, s.recs, rfl⟩
  · split
    · split
      · obtain ⟨t, r, m, c, h⟩ := State.failTarget_frame s _ _ .writeFail none
        exact ⟨t, r, m, s.watch, c, h⟩
      · exact State.copyWritten_frame s _ _
    · exact ⟨s.table, s.req, s.mig, s.watch, s.recs, rfl⟩
  · exact ⟨s.table, s.req, s.mig, s.watch, s.recs, rfl⟩

@[simp] theorem copyResponse_pwrOk (x : Tag) (a : Answer) (s : State) :
    (copyResponse x a s).pwrOk = s.pwrOk := by
  obtain ⟨_, _, _, _, _, h⟩ := copyResponse_frame x a s
  rw [h]

@[simp] theorem copyResponse_prstN (x : Tag) (a : Answer) (s : State) :
    (copyResponse x a s).prstN = s.prstN := by
  obtain ⟨_, _, _, _, _, h⟩ := copyResponse_frame x a s
  rw [h]

@[simp] theorem copyResponse_fwe (x : Tag) (a : Answer) (s : State) :
    (copyResponse x a s).fwe = s.fwe := by
  obtain ⟨_, _, _, _, _, h⟩ := copyResponse_frame x a s
  rw [h]

@[simp] theorem copyResponse_fuseArray (x : Tag) (a : Answer) (s : State) :
    (copyResponse x a s).fuseArray = s.fuseArray := by
  obtain ⟨_, _, _, _, _, h⟩ := copyResponse_frame x a s
  rw [h]

@[simp] theorem copyResponse_clock (x : Tag) (a : Answer) (s : State) :
    (copyResponse x a s).clock = s.clock := by
  obtain ⟨_, _, _, _, _, h⟩ := copyResponse_frame x a s
  rw [h]

@[simp] theorem copyResponse_arb (x : Tag) (a : Answer) (s : State) :
    (copyResponse x a s).arb = s.arb := by
  obtain ⟨_, _, _, _, _, h⟩ := copyResponse_frame x a s
  rw [h]

@[simp] theorem copyResponse_patrol (x : Tag) (a : Answer) (s : State) :
    (copyResponse x a s).patrol = s.patrol := by
  obtain ⟨_, _, _, _, _, h⟩ := copyResponse_frame x a s
  rw [h]

@[simp] theorem copyResponse_fuse (x : Tag) (a : Answer) (s : State) :
    (copyResponse x a s).fuse = s.fuse := by
  obtain ⟨_, _, _, _, _, h⟩ := copyResponse_frame x a s
  rw [h]

@[simp] theorem copyResponse_port (x : Tag) (a : Answer) (s : State) :
    (copyResponse x a s).port = s.port := by
  obtain ⟨_, _, _, _, _, h⟩ := copyResponse_frame x a s
  rw [h]

@[simp] theorem copyResponse_upSent (x : Tag) (a : Answer) (s : State) :
    (copyResponse x a s).upSent = s.upSent := by
  obtain ⟨_, _, _, _, _, h⟩ := copyResponse_frame x a s
  rw [h]

@[simp] theorem copyResponse_downSent (x : Tag) (a : Answer) (s : State) :
    (copyResponse x a s).downSent = s.downSent := by
  obtain ⟨_, _, _, _, _, h⟩ := copyResponse_frame x a s
  rw [h]

@[simp] theorem copyResponse_pending (x : Tag) (a : Answer) (s : State) :
    (copyResponse x a s).pending = s.pending := by
  obtain ⟨_, _, _, _, _, h⟩ := copyResponse_frame x a s
  rw [h]

/-! ### State.patrolRetire -/

/-- A patrol retirement changes the table and the records (R129). -/
theorem State.patrolRetire_frame (s : State) (x : Nat) :
    ∃ (t : List Entry) (c : RecordUnit),
      (s.patrolRetire x) = { s with table := t, recs := c } := by
  unfold State.patrolRetire State.retireIfFree
  cases entryAt s.table x with
  | free => exact ⟨_, _, rfl⟩
  | _ => exact ⟨s.table, s.recs, rfl⟩

@[simp] theorem State.patrolRetire_pwrOk (s : State) (x : Nat) :
    (s.patrolRetire x).pwrOk = s.pwrOk := by
  obtain ⟨_, _, h⟩ := State.patrolRetire_frame s x
  rw [h]

@[simp] theorem State.patrolRetire_prstN (s : State) (x : Nat) :
    (s.patrolRetire x).prstN = s.prstN := by
  obtain ⟨_, _, h⟩ := State.patrolRetire_frame s x
  rw [h]

@[simp] theorem State.patrolRetire_fwe (s : State) (x : Nat) :
    (s.patrolRetire x).fwe = s.fwe := by
  obtain ⟨_, _, h⟩ := State.patrolRetire_frame s x
  rw [h]

@[simp] theorem State.patrolRetire_fuseArray (s : State) (x : Nat) :
    (s.patrolRetire x).fuseArray = s.fuseArray := by
  obtain ⟨_, _, h⟩ := State.patrolRetire_frame s x
  rw [h]

@[simp] theorem State.patrolRetire_clock (s : State) (x : Nat) :
    (s.patrolRetire x).clock = s.clock := by
  obtain ⟨_, _, h⟩ := State.patrolRetire_frame s x
  rw [h]

@[simp] theorem State.patrolRetire_req (s : State) (x : Nat) :
    (s.patrolRetire x).req = s.req := by
  obtain ⟨_, _, h⟩ := State.patrolRetire_frame s x
  rw [h]

@[simp] theorem State.patrolRetire_arb (s : State) (x : Nat) :
    (s.patrolRetire x).arb = s.arb := by
  obtain ⟨_, _, h⟩ := State.patrolRetire_frame s x
  rw [h]

@[simp] theorem State.patrolRetire_mig (s : State) (x : Nat) :
    (s.patrolRetire x).mig = s.mig := by
  obtain ⟨_, _, h⟩ := State.patrolRetire_frame s x
  rw [h]

@[simp] theorem State.patrolRetire_watch (s : State) (x : Nat) :
    (s.patrolRetire x).watch = s.watch := by
  obtain ⟨_, _, h⟩ := State.patrolRetire_frame s x
  rw [h]

@[simp] theorem State.patrolRetire_patrol (s : State) (x : Nat) :
    (s.patrolRetire x).patrol = s.patrol := by
  obtain ⟨_, _, h⟩ := State.patrolRetire_frame s x
  rw [h]

@[simp] theorem State.patrolRetire_fuse (s : State) (x : Nat) :
    (s.patrolRetire x).fuse = s.fuse := by
  obtain ⟨_, _, h⟩ := State.patrolRetire_frame s x
  rw [h]

@[simp] theorem State.patrolRetire_port (s : State) (x : Nat) :
    (s.patrolRetire x).port = s.port := by
  obtain ⟨_, _, h⟩ := State.patrolRetire_frame s x
  rw [h]

@[simp] theorem State.patrolRetire_upSent (s : State) (x : Nat) :
    (s.patrolRetire x).upSent = s.upSent := by
  obtain ⟨_, _, h⟩ := State.patrolRetire_frame s x
  rw [h]

@[simp] theorem State.patrolRetire_downSent (s : State) (x : Nat) :
    (s.patrolRetire x).downSent = s.downSent := by
  obtain ⟨_, _, h⟩ := State.patrolRetire_frame s x
  rw [h]

@[simp] theorem State.patrolRetire_pending (s : State) (x : Nat) :
    (s.patrolRetire x).pending = s.pending := by
  obtain ⟨_, _, h⟩ := State.patrolRetire_frame s x
  rw [h]

/-! ### State.endPatrolRead -/

/-- The end of a patrol read changes the patrol unit alone (R128). -/
theorem State.endPatrolRead_frame (s : State) :
    ∃ (p : PatrolUnit),
      s.endPatrolRead = { s with patrol := p } := by
  exact ⟨_, rfl⟩

@[simp] theorem State.endPatrolRead_pwrOk (s : State) :
    s.endPatrolRead.pwrOk = s.pwrOk := by
  obtain ⟨_, h⟩ := State.endPatrolRead_frame s
  rw [h]

@[simp] theorem State.endPatrolRead_prstN (s : State) :
    s.endPatrolRead.prstN = s.prstN := by
  obtain ⟨_, h⟩ := State.endPatrolRead_frame s
  rw [h]

@[simp] theorem State.endPatrolRead_fwe (s : State) :
    s.endPatrolRead.fwe = s.fwe := by
  obtain ⟨_, h⟩ := State.endPatrolRead_frame s
  rw [h]

@[simp] theorem State.endPatrolRead_fuseArray (s : State) :
    s.endPatrolRead.fuseArray = s.fuseArray := by
  obtain ⟨_, h⟩ := State.endPatrolRead_frame s
  rw [h]

@[simp] theorem State.endPatrolRead_clock (s : State) :
    s.endPatrolRead.clock = s.clock := by
  obtain ⟨_, h⟩ := State.endPatrolRead_frame s
  rw [h]

@[simp] theorem State.endPatrolRead_table (s : State) :
    s.endPatrolRead.table = s.table := by
  obtain ⟨_, h⟩ := State.endPatrolRead_frame s
  rw [h]

@[simp] theorem State.endPatrolRead_req (s : State) :
    s.endPatrolRead.req = s.req := by
  obtain ⟨_, h⟩ := State.endPatrolRead_frame s
  rw [h]

@[simp] theorem State.endPatrolRead_arb (s : State) :
    s.endPatrolRead.arb = s.arb := by
  obtain ⟨_, h⟩ := State.endPatrolRead_frame s
  rw [h]

@[simp] theorem State.endPatrolRead_mig (s : State) :
    s.endPatrolRead.mig = s.mig := by
  obtain ⟨_, h⟩ := State.endPatrolRead_frame s
  rw [h]

@[simp] theorem State.endPatrolRead_watch (s : State) :
    s.endPatrolRead.watch = s.watch := by
  obtain ⟨_, h⟩ := State.endPatrolRead_frame s
  rw [h]

@[simp] theorem State.endPatrolRead_recs (s : State) :
    s.endPatrolRead.recs = s.recs := by
  obtain ⟨_, h⟩ := State.endPatrolRead_frame s
  rw [h]

@[simp] theorem State.endPatrolRead_fuse (s : State) :
    s.endPatrolRead.fuse = s.fuse := by
  obtain ⟨_, h⟩ := State.endPatrolRead_frame s
  rw [h]

@[simp] theorem State.endPatrolRead_port (s : State) :
    s.endPatrolRead.port = s.port := by
  obtain ⟨_, h⟩ := State.endPatrolRead_frame s
  rw [h]

@[simp] theorem State.endPatrolRead_upSent (s : State) :
    s.endPatrolRead.upSent = s.upSent := by
  obtain ⟨_, h⟩ := State.endPatrolRead_frame s
  rw [h]

@[simp] theorem State.endPatrolRead_downSent (s : State) :
    s.endPatrolRead.downSent = s.downSent := by
  obtain ⟨_, h⟩ := State.endPatrolRead_frame s
  rw [h]

@[simp] theorem State.endPatrolRead_pending (s : State) :
    s.endPatrolRead.pending = s.pending := by
  obtain ⟨_, h⟩ := State.endPatrolRead_frame s
  rw [h]

/-! ### patrolResponse -/

/-- A PATROL response changes the patrol unit, the table and the records (R128). -/
theorem patrolResponse_frame (x : Tag) (a : Answer) (s : State) :
    ∃ (t : List Entry) (p : PatrolUnit) (c : RecordUnit),
      (patrolResponse x a s) = { s with table := t, patrol := p, recs := c } := by
  unfold patrolResponse
  split
  · split
    · split
      · rename_i b _ _ _ _ _ _
        obtain ⟨t, c, h⟩ := State.patrolRetire_frame s (b - s.limit)
        obtain ⟨p, h2⟩ := State.endPatrolRead_frame (s.patrolRetire (b - s.limit))
        exact ⟨t, p, c, by rw [h2, h]⟩
      · obtain ⟨p, h⟩ := State.endPatrolRead_frame s
        exact ⟨s.table, p, s.recs, h⟩
    · exact ⟨s.table, s.patrol, s.recs, rfl⟩
  · exact ⟨s.table, s.patrol, s.recs, rfl⟩

@[simp] theorem patrolResponse_pwrOk (x : Tag) (a : Answer) (s : State) :
    (patrolResponse x a s).pwrOk = s.pwrOk := by
  obtain ⟨_, _, _, h⟩ := patrolResponse_frame x a s
  rw [h]

@[simp] theorem patrolResponse_prstN (x : Tag) (a : Answer) (s : State) :
    (patrolResponse x a s).prstN = s.prstN := by
  obtain ⟨_, _, _, h⟩ := patrolResponse_frame x a s
  rw [h]

@[simp] theorem patrolResponse_fwe (x : Tag) (a : Answer) (s : State) :
    (patrolResponse x a s).fwe = s.fwe := by
  obtain ⟨_, _, _, h⟩ := patrolResponse_frame x a s
  rw [h]

@[simp] theorem patrolResponse_fuseArray (x : Tag) (a : Answer) (s : State) :
    (patrolResponse x a s).fuseArray = s.fuseArray := by
  obtain ⟨_, _, _, h⟩ := patrolResponse_frame x a s
  rw [h]

@[simp] theorem patrolResponse_clock (x : Tag) (a : Answer) (s : State) :
    (patrolResponse x a s).clock = s.clock := by
  obtain ⟨_, _, _, h⟩ := patrolResponse_frame x a s
  rw [h]

@[simp] theorem patrolResponse_req (x : Tag) (a : Answer) (s : State) :
    (patrolResponse x a s).req = s.req := by
  obtain ⟨_, _, _, h⟩ := patrolResponse_frame x a s
  rw [h]

@[simp] theorem patrolResponse_arb (x : Tag) (a : Answer) (s : State) :
    (patrolResponse x a s).arb = s.arb := by
  obtain ⟨_, _, _, h⟩ := patrolResponse_frame x a s
  rw [h]

@[simp] theorem patrolResponse_mig (x : Tag) (a : Answer) (s : State) :
    (patrolResponse x a s).mig = s.mig := by
  obtain ⟨_, _, _, h⟩ := patrolResponse_frame x a s
  rw [h]

@[simp] theorem patrolResponse_watch (x : Tag) (a : Answer) (s : State) :
    (patrolResponse x a s).watch = s.watch := by
  obtain ⟨_, _, _, h⟩ := patrolResponse_frame x a s
  rw [h]

@[simp] theorem patrolResponse_fuse (x : Tag) (a : Answer) (s : State) :
    (patrolResponse x a s).fuse = s.fuse := by
  obtain ⟨_, _, _, h⟩ := patrolResponse_frame x a s
  rw [h]

@[simp] theorem patrolResponse_port (x : Tag) (a : Answer) (s : State) :
    (patrolResponse x a s).port = s.port := by
  obtain ⟨_, _, _, h⟩ := patrolResponse_frame x a s
  rw [h]

@[simp] theorem patrolResponse_upSent (x : Tag) (a : Answer) (s : State) :
    (patrolResponse x a s).upSent = s.upSent := by
  obtain ⟨_, _, _, h⟩ := patrolResponse_frame x a s
  rw [h]

@[simp] theorem patrolResponse_downSent (x : Tag) (a : Answer) (s : State) :
    (patrolResponse x a s).downSent = s.downSent := by
  obtain ⟨_, _, _, h⟩ := patrolResponse_frame x a s
  rw [h]

@[simp] theorem patrolResponse_pending (x : Tag) (a : Answer) (s : State) :
    (patrolResponse x a s).pending = s.pending := by
  obtain ⟨_, _, _, h⟩ := patrolResponse_frame x a s
  rw [h]

/-! ### State.route -/

/-- The owner's handling of a response leaves the arbiter, the fuse unit, the port, the pins and the clocks (R60). -/
theorem State.route_frame (s : State) (x : Tag) (e : OutEntry) (a : Answer) :
    ∃ (t : List Entry) (r : RequestUnit) (m : MigrationUnit) (w : WatchUnit) (p : PatrolUnit) (c : RecordUnit) (u : List UpMessage),
      (s.route x e a) = { s with table := t, req := r, mig := m, watch := w, patrol := p, recs := c, upSent := u } := by
  unfold State.route
  split
  · obtain ⟨r, m, c, u, h⟩ := requestResponse_frame _ x e a s
    exact ⟨s.table, r, m, s.watch, s.patrol, c, u, h⟩
  · obtain ⟨t, r, m, w, c, h⟩ := copyResponse_frame x a s
    exact ⟨t, r, m, w, s.patrol, c, s.upSent, h⟩
  · obtain ⟨t, p, c, h⟩ := patrolResponse_frame x a s
    exact ⟨t, s.req, s.mig, s.watch, p, c, s.upSent, h⟩

@[simp] theorem State.route_pwrOk (s : State) (x : Tag) (e : OutEntry) (a : Answer) :
    (s.route x e a).pwrOk = s.pwrOk := by
  obtain ⟨_, _, _, _, _, _, _, h⟩ := State.route_frame s x e a
  rw [h]

@[simp] theorem State.route_prstN (s : State) (x : Tag) (e : OutEntry) (a : Answer) :
    (s.route x e a).prstN = s.prstN := by
  obtain ⟨_, _, _, _, _, _, _, h⟩ := State.route_frame s x e a
  rw [h]

@[simp] theorem State.route_fwe (s : State) (x : Tag) (e : OutEntry) (a : Answer) :
    (s.route x e a).fwe = s.fwe := by
  obtain ⟨_, _, _, _, _, _, _, h⟩ := State.route_frame s x e a
  rw [h]

@[simp] theorem State.route_fuseArray (s : State) (x : Tag) (e : OutEntry) (a : Answer) :
    (s.route x e a).fuseArray = s.fuseArray := by
  obtain ⟨_, _, _, _, _, _, _, h⟩ := State.route_frame s x e a
  rw [h]

@[simp] theorem State.route_clock (s : State) (x : Tag) (e : OutEntry) (a : Answer) :
    (s.route x e a).clock = s.clock := by
  obtain ⟨_, _, _, _, _, _, _, h⟩ := State.route_frame s x e a
  rw [h]

@[simp] theorem State.route_arb (s : State) (x : Tag) (e : OutEntry) (a : Answer) :
    (s.route x e a).arb = s.arb := by
  obtain ⟨_, _, _, _, _, _, _, h⟩ := State.route_frame s x e a
  rw [h]

@[simp] theorem State.route_fuse (s : State) (x : Tag) (e : OutEntry) (a : Answer) :
    (s.route x e a).fuse = s.fuse := by
  obtain ⟨_, _, _, _, _, _, _, h⟩ := State.route_frame s x e a
  rw [h]

@[simp] theorem State.route_port (s : State) (x : Tag) (e : OutEntry) (a : Answer) :
    (s.route x e a).port = s.port := by
  obtain ⟨_, _, _, _, _, _, _, h⟩ := State.route_frame s x e a
  rw [h]

@[simp] theorem State.route_downSent (s : State) (x : Tag) (e : OutEntry) (a : Answer) :
    (s.route x e a).downSent = s.downSent := by
  obtain ⟨_, _, _, _, _, _, _, h⟩ := State.route_frame s x e a
  rw [h]

@[simp] theorem State.route_pending (s : State) (x : Tag) (e : OutEntry) (a : Answer) :
    (s.route x e a).pending = s.pending := by
  obtain ⟨_, _, _, _, _, _, _, h⟩ := State.route_frame s x e a
  rw [h]

/-! ### State.fireEnqueue -/

/-- A firing's enqueue changes the migration unit, the suspect table and the records (R109). -/
theorem State.fireEnqueue_frame (s : State) (x : LimitClass) (i l : Nat) (e : Suspect) :
    ∃ (m : MigrationUnit) (w : WatchUnit) (c : RecordUnit),
      (s.fireEnqueue x i l e) = { s with mig := m, watch := w, recs := c } := by
  unfold State.fireEnqueue State.enqueue
  dsimp only
  split
  · exact ⟨s.mig, _, _, rfl⟩
  · split
    · exact ⟨s.mig, _, _, rfl⟩
    · exact ⟨_, _, _, rfl⟩

@[simp] theorem State.fireEnqueue_pwrOk (s : State) (x : LimitClass) (i l : Nat) (e : Suspect) :
    (s.fireEnqueue x i l e).pwrOk = s.pwrOk := by
  obtain ⟨_, _, _, h⟩ := State.fireEnqueue_frame s x i l e
  rw [h]

@[simp] theorem State.fireEnqueue_prstN (s : State) (x : LimitClass) (i l : Nat) (e : Suspect) :
    (s.fireEnqueue x i l e).prstN = s.prstN := by
  obtain ⟨_, _, _, h⟩ := State.fireEnqueue_frame s x i l e
  rw [h]

@[simp] theorem State.fireEnqueue_fwe (s : State) (x : LimitClass) (i l : Nat) (e : Suspect) :
    (s.fireEnqueue x i l e).fwe = s.fwe := by
  obtain ⟨_, _, _, h⟩ := State.fireEnqueue_frame s x i l e
  rw [h]

@[simp] theorem State.fireEnqueue_fuseArray (s : State) (x : LimitClass) (i l : Nat) (e : Suspect) :
    (s.fireEnqueue x i l e).fuseArray = s.fuseArray := by
  obtain ⟨_, _, _, h⟩ := State.fireEnqueue_frame s x i l e
  rw [h]

@[simp] theorem State.fireEnqueue_clock (s : State) (x : LimitClass) (i l : Nat) (e : Suspect) :
    (s.fireEnqueue x i l e).clock = s.clock := by
  obtain ⟨_, _, _, h⟩ := State.fireEnqueue_frame s x i l e
  rw [h]

@[simp] theorem State.fireEnqueue_table (s : State) (x : LimitClass) (i l : Nat) (e : Suspect) :
    (s.fireEnqueue x i l e).table = s.table := by
  obtain ⟨_, _, _, h⟩ := State.fireEnqueue_frame s x i l e
  rw [h]

@[simp] theorem State.fireEnqueue_req (s : State) (x : LimitClass) (i l : Nat) (e : Suspect) :
    (s.fireEnqueue x i l e).req = s.req := by
  obtain ⟨_, _, _, h⟩ := State.fireEnqueue_frame s x i l e
  rw [h]

@[simp] theorem State.fireEnqueue_arb (s : State) (x : LimitClass) (i l : Nat) (e : Suspect) :
    (s.fireEnqueue x i l e).arb = s.arb := by
  obtain ⟨_, _, _, h⟩ := State.fireEnqueue_frame s x i l e
  rw [h]

@[simp] theorem State.fireEnqueue_patrol (s : State) (x : LimitClass) (i l : Nat) (e : Suspect) :
    (s.fireEnqueue x i l e).patrol = s.patrol := by
  obtain ⟨_, _, _, h⟩ := State.fireEnqueue_frame s x i l e
  rw [h]

@[simp] theorem State.fireEnqueue_fuse (s : State) (x : LimitClass) (i l : Nat) (e : Suspect) :
    (s.fireEnqueue x i l e).fuse = s.fuse := by
  obtain ⟨_, _, _, h⟩ := State.fireEnqueue_frame s x i l e
  rw [h]

@[simp] theorem State.fireEnqueue_port (s : State) (x : LimitClass) (i l : Nat) (e : Suspect) :
    (s.fireEnqueue x i l e).port = s.port := by
  obtain ⟨_, _, _, h⟩ := State.fireEnqueue_frame s x i l e
  rw [h]

@[simp] theorem State.fireEnqueue_upSent (s : State) (x : LimitClass) (i l : Nat) (e : Suspect) :
    (s.fireEnqueue x i l e).upSent = s.upSent := by
  obtain ⟨_, _, _, h⟩ := State.fireEnqueue_frame s x i l e
  rw [h]

@[simp] theorem State.fireEnqueue_downSent (s : State) (x : LimitClass) (i l : Nat) (e : Suspect) :
    (s.fireEnqueue x i l e).downSent = s.downSent := by
  obtain ⟨_, _, _, h⟩ := State.fireEnqueue_frame s x i l e
  rw [h]

@[simp] theorem State.fireEnqueue_pending (s : State) (x : LimitClass) (i l : Nat) (e : Suspect) :
    (s.fireEnqueue x i l e).pending = s.pending := by
  obtain ⟨_, _, _, h⟩ := State.fireEnqueue_frame s x i l e
  rw [h]

/-! ### State.fireFreeSpare -/

/-- A firing on a free spare changes the table, the migration unit, the suspect table and the records (R110). -/
theorem State.fireFreeSpare_frame (s : State) (i x n : Nat) (e : Suspect) :
    ∃ (t : List Entry) (m : MigrationUnit) (w : WatchUnit) (c : RecordUnit),
      (s.fireFreeSpare i x n e) = { s with table := t, mig := m, watch := w, recs := c } := by
  unfold State.fireFreeSpare State.retireIfFree
  cases entryAt s.table x with
  | free => exact ⟨_, s.mig, s.watch, _, rfl⟩
  | reserved l => exact ⟨s.table, _, s.watch, s.recs, rfl⟩
  | soft l c =>
    dsimp only
    split
    · exact ⟨s.table, s.mig, _, s.recs, rfl⟩
    · unfold State.enqueue
      split
      · exact ⟨s.table, s.mig, s.watch, s.recs, rfl⟩
      · split
        · exact ⟨s.table, s.mig, s.watch, s.recs, rfl⟩
        · exact ⟨s.table, _, s.watch, s.recs, rfl⟩
  | hard l k =>
    dsimp only
    split
    · exact ⟨s.table, s.mig, _, s.recs, rfl⟩
    · unfold State.enqueue
      split
      · exact ⟨s.table, s.mig, s.watch, s.recs, rfl⟩
      · split
        · exact ⟨s.table, s.mig, s.watch, s.recs, rfl⟩
        · exact ⟨s.table, _, s.watch, s.recs, rfl⟩
  | retired l k b c => exact ⟨s.table, s.mig, s.watch, s.recs, rfl⟩

@[simp] theorem State.fireFreeSpare_pwrOk (s : State) (i x n : Nat) (e : Suspect) :
    (s.fireFreeSpare i x n e).pwrOk = s.pwrOk := by
  obtain ⟨_, _, _, _, h⟩ := State.fireFreeSpare_frame s i x n e
  rw [h]

@[simp] theorem State.fireFreeSpare_prstN (s : State) (i x n : Nat) (e : Suspect) :
    (s.fireFreeSpare i x n e).prstN = s.prstN := by
  obtain ⟨_, _, _, _, h⟩ := State.fireFreeSpare_frame s i x n e
  rw [h]

@[simp] theorem State.fireFreeSpare_fwe (s : State) (i x n : Nat) (e : Suspect) :
    (s.fireFreeSpare i x n e).fwe = s.fwe := by
  obtain ⟨_, _, _, _, h⟩ := State.fireFreeSpare_frame s i x n e
  rw [h]

@[simp] theorem State.fireFreeSpare_fuseArray (s : State) (i x n : Nat) (e : Suspect) :
    (s.fireFreeSpare i x n e).fuseArray = s.fuseArray := by
  obtain ⟨_, _, _, _, h⟩ := State.fireFreeSpare_frame s i x n e
  rw [h]

@[simp] theorem State.fireFreeSpare_clock (s : State) (i x n : Nat) (e : Suspect) :
    (s.fireFreeSpare i x n e).clock = s.clock := by
  obtain ⟨_, _, _, _, h⟩ := State.fireFreeSpare_frame s i x n e
  rw [h]

@[simp] theorem State.fireFreeSpare_req (s : State) (i x n : Nat) (e : Suspect) :
    (s.fireFreeSpare i x n e).req = s.req := by
  obtain ⟨_, _, _, _, h⟩ := State.fireFreeSpare_frame s i x n e
  rw [h]

@[simp] theorem State.fireFreeSpare_arb (s : State) (i x n : Nat) (e : Suspect) :
    (s.fireFreeSpare i x n e).arb = s.arb := by
  obtain ⟨_, _, _, _, h⟩ := State.fireFreeSpare_frame s i x n e
  rw [h]

@[simp] theorem State.fireFreeSpare_patrol (s : State) (i x n : Nat) (e : Suspect) :
    (s.fireFreeSpare i x n e).patrol = s.patrol := by
  obtain ⟨_, _, _, _, h⟩ := State.fireFreeSpare_frame s i x n e
  rw [h]

@[simp] theorem State.fireFreeSpare_fuse (s : State) (i x n : Nat) (e : Suspect) :
    (s.fireFreeSpare i x n e).fuse = s.fuse := by
  obtain ⟨_, _, _, _, h⟩ := State.fireFreeSpare_frame s i x n e
  rw [h]

@[simp] theorem State.fireFreeSpare_port (s : State) (i x n : Nat) (e : Suspect) :
    (s.fireFreeSpare i x n e).port = s.port := by
  obtain ⟨_, _, _, _, h⟩ := State.fireFreeSpare_frame s i x n e
  rw [h]

@[simp] theorem State.fireFreeSpare_upSent (s : State) (i x n : Nat) (e : Suspect) :
    (s.fireFreeSpare i x n e).upSent = s.upSent := by
  obtain ⟨_, _, _, _, h⟩ := State.fireFreeSpare_frame s i x n e
  rw [h]

@[simp] theorem State.fireFreeSpare_downSent (s : State) (i x n : Nat) (e : Suspect) :
    (s.fireFreeSpare i x n e).downSent = s.downSent := by
  obtain ⟨_, _, _, _, h⟩ := State.fireFreeSpare_frame s i x n e
  rw [h]

@[simp] theorem State.fireFreeSpare_pending (s : State) (i x n : Nat) (e : Suspect) :
    (s.fireFreeSpare i x n e).pending = s.pending := by
  obtain ⟨_, _, _, _, h⟩ := State.fireFreeSpare_frame s i x n e
  rw [h]

/-! ### State.fire -/

/-- A firing changes the table, the migration unit, the suspect table and the records (R107, R108). -/
theorem State.fire_frame (s : State) (x : BlockClass) (y : LimitClass) (i : Nat) (e : Suspect) :
    ∃ (t : List Entry) (m : MigrationUnit) (w : WatchUnit) (c : RecordUnit),
      (s.fire x y i e) = { s with table := t, mig := m, watch := w, recs := c } := by
  unfold State.fire
  split
  · exact ⟨s.table, s.mig, _, s.recs, rfl⟩
  · exact ⟨s.table, s.mig, _, _, rfl⟩
  · exact ⟨s.table, s.mig, _, _, rfl⟩
  · unfold State.fireRetire
    dsimp only
    split
    · obtain ⟨m, w, c, h⟩ := State.fireEnqueue_frame s y i _ (e.setFired y)
      exact ⟨s.table, m, w, c, h⟩
    · obtain ⟨m, w, c, h⟩ := State.fireEnqueue_frame s y i _ (e.setFired y)
      exact ⟨s.table, m, w, c, h⟩
    · rename_i k
      obtain ⟨t, m, w, c, h⟩ := State.fireFreeSpare_frame
        ((s.setSuspect i (e.setFired y)).handFiring y e) i k s.watch.firings (e.setFired y)
      exact ⟨t, m, w, c, by rw [h]; rfl⟩
    · exact ⟨s.table, _, _, _, rfl⟩
    · exact ⟨s.table, s.mig, _, s.recs, rfl⟩
    · exact ⟨s.table, s.mig, _, s.recs, rfl⟩

@[simp] theorem State.fire_pwrOk (s : State) (x : BlockClass) (y : LimitClass) (i : Nat) (e : Suspect) :
    (s.fire x y i e).pwrOk = s.pwrOk := by
  obtain ⟨_, _, _, _, h⟩ := State.fire_frame s x y i e
  rw [h]

@[simp] theorem State.fire_prstN (s : State) (x : BlockClass) (y : LimitClass) (i : Nat) (e : Suspect) :
    (s.fire x y i e).prstN = s.prstN := by
  obtain ⟨_, _, _, _, h⟩ := State.fire_frame s x y i e
  rw [h]

@[simp] theorem State.fire_fwe (s : State) (x : BlockClass) (y : LimitClass) (i : Nat) (e : Suspect) :
    (s.fire x y i e).fwe = s.fwe := by
  obtain ⟨_, _, _, _, h⟩ := State.fire_frame s x y i e
  rw [h]

@[simp] theorem State.fire_fuseArray (s : State) (x : BlockClass) (y : LimitClass) (i : Nat) (e : Suspect) :
    (s.fire x y i e).fuseArray = s.fuseArray := by
  obtain ⟨_, _, _, _, h⟩ := State.fire_frame s x y i e
  rw [h]

@[simp] theorem State.fire_clock (s : State) (x : BlockClass) (y : LimitClass) (i : Nat) (e : Suspect) :
    (s.fire x y i e).clock = s.clock := by
  obtain ⟨_, _, _, _, h⟩ := State.fire_frame s x y i e
  rw [h]

@[simp] theorem State.fire_req (s : State) (x : BlockClass) (y : LimitClass) (i : Nat) (e : Suspect) :
    (s.fire x y i e).req = s.req := by
  obtain ⟨_, _, _, _, h⟩ := State.fire_frame s x y i e
  rw [h]

@[simp] theorem State.fire_arb (s : State) (x : BlockClass) (y : LimitClass) (i : Nat) (e : Suspect) :
    (s.fire x y i e).arb = s.arb := by
  obtain ⟨_, _, _, _, h⟩ := State.fire_frame s x y i e
  rw [h]

@[simp] theorem State.fire_patrol (s : State) (x : BlockClass) (y : LimitClass) (i : Nat) (e : Suspect) :
    (s.fire x y i e).patrol = s.patrol := by
  obtain ⟨_, _, _, _, h⟩ := State.fire_frame s x y i e
  rw [h]

@[simp] theorem State.fire_fuse (s : State) (x : BlockClass) (y : LimitClass) (i : Nat) (e : Suspect) :
    (s.fire x y i e).fuse = s.fuse := by
  obtain ⟨_, _, _, _, h⟩ := State.fire_frame s x y i e
  rw [h]

@[simp] theorem State.fire_port (s : State) (x : BlockClass) (y : LimitClass) (i : Nat) (e : Suspect) :
    (s.fire x y i e).port = s.port := by
  obtain ⟨_, _, _, _, h⟩ := State.fire_frame s x y i e
  rw [h]

@[simp] theorem State.fire_upSent (s : State) (x : BlockClass) (y : LimitClass) (i : Nat) (e : Suspect) :
    (s.fire x y i e).upSent = s.upSent := by
  obtain ⟨_, _, _, _, h⟩ := State.fire_frame s x y i e
  rw [h]

@[simp] theorem State.fire_downSent (s : State) (x : BlockClass) (y : LimitClass) (i : Nat) (e : Suspect) :
    (s.fire x y i e).downSent = s.downSent := by
  obtain ⟨_, _, _, _, h⟩ := State.fire_frame s x y i e
  rw [h]

@[simp] theorem State.fire_pending (s : State) (x : BlockClass) (y : LimitClass) (i : Nat) (e : Suspect) :
    (s.fire x y i e).pending = s.pending := by
  obtain ⟨_, _, _, _, h⟩ := State.fire_frame s x y i e
  rw [h]

/-! ### State.countItem -/

/-- One item of a report changes the table, the migration unit, the suspect table and the records (R105). -/
theorem State.countItem_frame (s : State) (x : BlockClass) (i : Nat) (y : ItemStatus) :
    ∃ (t : List Entry) (m : MigrationUnit) (w : WatchUnit) (c : RecordUnit),
      (s.countItem x i y) = { s with table := t, mig := m, watch := w, recs := c } := by
  unfold State.countItem
  split
  · dsimp only
    split
    · exact State.fire_frame s x _ i _
    · exact ⟨s.table, s.mig, _, s.recs, rfl⟩
  · exact ⟨s.table, s.mig, s.watch, s.recs, rfl⟩

@[simp] theorem State.countItem_pwrOk (s : State) (x : BlockClass) (i : Nat) (y : ItemStatus) :
    (s.countItem x i y).pwrOk = s.pwrOk := by
  obtain ⟨_, _, _, _, h⟩ := State.countItem_frame s x i y
  rw [h]

@[simp] theorem State.countItem_prstN (s : State) (x : BlockClass) (i : Nat) (y : ItemStatus) :
    (s.countItem x i y).prstN = s.prstN := by
  obtain ⟨_, _, _, _, h⟩ := State.countItem_frame s x i y
  rw [h]

@[simp] theorem State.countItem_fwe (s : State) (x : BlockClass) (i : Nat) (y : ItemStatus) :
    (s.countItem x i y).fwe = s.fwe := by
  obtain ⟨_, _, _, _, h⟩ := State.countItem_frame s x i y
  rw [h]

@[simp] theorem State.countItem_fuseArray (s : State) (x : BlockClass) (i : Nat) (y : ItemStatus) :
    (s.countItem x i y).fuseArray = s.fuseArray := by
  obtain ⟨_, _, _, _, h⟩ := State.countItem_frame s x i y
  rw [h]

@[simp] theorem State.countItem_clock (s : State) (x : BlockClass) (i : Nat) (y : ItemStatus) :
    (s.countItem x i y).clock = s.clock := by
  obtain ⟨_, _, _, _, h⟩ := State.countItem_frame s x i y
  rw [h]

@[simp] theorem State.countItem_req (s : State) (x : BlockClass) (i : Nat) (y : ItemStatus) :
    (s.countItem x i y).req = s.req := by
  obtain ⟨_, _, _, _, h⟩ := State.countItem_frame s x i y
  rw [h]

@[simp] theorem State.countItem_arb (s : State) (x : BlockClass) (i : Nat) (y : ItemStatus) :
    (s.countItem x i y).arb = s.arb := by
  obtain ⟨_, _, _, _, h⟩ := State.countItem_frame s x i y
  rw [h]

@[simp] theorem State.countItem_patrol (s : State) (x : BlockClass) (i : Nat) (y : ItemStatus) :
    (s.countItem x i y).patrol = s.patrol := by
  obtain ⟨_, _, _, _, h⟩ := State.countItem_frame s x i y
  rw [h]

@[simp] theorem State.countItem_fuse (s : State) (x : BlockClass) (i : Nat) (y : ItemStatus) :
    (s.countItem x i y).fuse = s.fuse := by
  obtain ⟨_, _, _, _, h⟩ := State.countItem_frame s x i y
  rw [h]

@[simp] theorem State.countItem_port (s : State) (x : BlockClass) (i : Nat) (y : ItemStatus) :
    (s.countItem x i y).port = s.port := by
  obtain ⟨_, _, _, _, h⟩ := State.countItem_frame s x i y
  rw [h]

@[simp] theorem State.countItem_upSent (s : State) (x : BlockClass) (i : Nat) (y : ItemStatus) :
    (s.countItem x i y).upSent = s.upSent := by
  obtain ⟨_, _, _, _, h⟩ := State.countItem_frame s x i y
  rw [h]

@[simp] theorem State.countItem_downSent (s : State) (x : BlockClass) (i : Nat) (y : ItemStatus) :
    (s.countItem x i y).downSent = s.downSent := by
  obtain ⟨_, _, _, _, h⟩ := State.countItem_frame s x i y
  rw [h]

@[simp] theorem State.countItem_pending (s : State) (x : BlockClass) (i : Nat) (y : ItemStatus) :
    (s.countItem x i y).pending = s.pending := by
  obtain ⟨_, _, _, _, h⟩ := State.countItem_frame s x i y
  rw [h]

/-! ### countItems -/

/-- The items of a report change the table, the migration unit, the suspect table and the records (R105). -/
theorem countItems_frame (x : BlockClass) (i : Nat) (y : List (Nat × ItemStatus)) (s : State) :
    ∃ (t : List Entry) (m : MigrationUnit) (w : WatchUnit) (c : RecordUnit),
      (y.foldl (fun s z => s.countItem x i z.2) s) = { s with table := t, mig := m, watch := w, recs := c } := by
  induction y generalizing s with
  | nil => exact ⟨s.table, s.mig, s.watch, s.recs, rfl⟩
  | cons v y ih =>
    rw [List.foldl_cons]
    obtain ⟨t, m, w, c, h⟩ := ih (s.countItem x i v.2)
    obtain ⟨t', m', w', c', h'⟩ := State.countItem_frame s x i v.2
    exact ⟨t, m, w, c, by rw [h, h']⟩

/-! ### State.takeReport -/

/-- A status report changes the table, the migration unit, the suspect table and the records (R100). -/
theorem State.takeReport_frame (s : State) (x : StatusReport) :
    ∃ (t : List Entry) (m : MigrationUnit) (w : WatchUnit) (c : RecordUnit),
      (s.takeReport x) = { s with table := t, mig := m, watch := w, recs := c } := by
  unfold State.takeReport
  split
  · exact ⟨s.table, s.mig, s.watch, s.recs, rfl⟩
  · dsimp only
    split
    · exact ⟨s.table, s.mig, s.watch, s.recs, rfl⟩
    · split
      · rename_i i _
        obtain ⟨t, m, w, c, h⟩ := countItems_frame (s.classify x.block) i x.items
          (s.setSuspect i (suspectFor s.clock.epoch s.watch.suspects x.block i))
        exact ⟨t, m, w, c, by rw [h]; rfl⟩
      · split
        · exact ⟨s.table, s.mig, s.watch, s.recs, rfl⟩
        · exact ⟨s.table, s.mig, _, _, rfl⟩

@[simp] theorem State.takeReport_pwrOk (s : State) (x : StatusReport) :
    (s.takeReport x).pwrOk = s.pwrOk := by
  obtain ⟨_, _, _, _, h⟩ := State.takeReport_frame s x
  rw [h]

@[simp] theorem State.takeReport_prstN (s : State) (x : StatusReport) :
    (s.takeReport x).prstN = s.prstN := by
  obtain ⟨_, _, _, _, h⟩ := State.takeReport_frame s x
  rw [h]

@[simp] theorem State.takeReport_fwe (s : State) (x : StatusReport) :
    (s.takeReport x).fwe = s.fwe := by
  obtain ⟨_, _, _, _, h⟩ := State.takeReport_frame s x
  rw [h]

@[simp] theorem State.takeReport_fuseArray (s : State) (x : StatusReport) :
    (s.takeReport x).fuseArray = s.fuseArray := by
  obtain ⟨_, _, _, _, h⟩ := State.takeReport_frame s x
  rw [h]

@[simp] theorem State.takeReport_clock (s : State) (x : StatusReport) :
    (s.takeReport x).clock = s.clock := by
  obtain ⟨_, _, _, _, h⟩ := State.takeReport_frame s x
  rw [h]

@[simp] theorem State.takeReport_req (s : State) (x : StatusReport) :
    (s.takeReport x).req = s.req := by
  obtain ⟨_, _, _, _, h⟩ := State.takeReport_frame s x
  rw [h]

@[simp] theorem State.takeReport_arb (s : State) (x : StatusReport) :
    (s.takeReport x).arb = s.arb := by
  obtain ⟨_, _, _, _, h⟩ := State.takeReport_frame s x
  rw [h]

@[simp] theorem State.takeReport_patrol (s : State) (x : StatusReport) :
    (s.takeReport x).patrol = s.patrol := by
  obtain ⟨_, _, _, _, h⟩ := State.takeReport_frame s x
  rw [h]

@[simp] theorem State.takeReport_fuse (s : State) (x : StatusReport) :
    (s.takeReport x).fuse = s.fuse := by
  obtain ⟨_, _, _, _, h⟩ := State.takeReport_frame s x
  rw [h]

@[simp] theorem State.takeReport_port (s : State) (x : StatusReport) :
    (s.takeReport x).port = s.port := by
  obtain ⟨_, _, _, _, h⟩ := State.takeReport_frame s x
  rw [h]

@[simp] theorem State.takeReport_upSent (s : State) (x : StatusReport) :
    (s.takeReport x).upSent = s.upSent := by
  obtain ⟨_, _, _, _, h⟩ := State.takeReport_frame s x
  rw [h]

@[simp] theorem State.takeReport_downSent (s : State) (x : StatusReport) :
    (s.takeReport x).downSent = s.downSent := by
  obtain ⟨_, _, _, _, h⟩ := State.takeReport_frame s x
  rw [h]

@[simp] theorem State.takeReport_pending (s : State) (x : StatusReport) :
    (s.takeReport x).pending = s.pending := by
  obtain ⟨_, _, _, _, h⟩ := State.takeReport_frame s x
  rw [h]

/-! ### State.reportStatuses -/

/-- The status report of a response changes the table, the migration unit, the suspect table and the records (R61). -/
theorem State.reportStatuses_frame (s : State) (e : OutEntry) (x : Answer) (y : Bool) :
    ∃ (t : List Entry) (m : MigrationUnit) (w : WatchUnit) (c : RecordUnit),
      (s.reportStatuses e x y) = { s with table := t, mig := m, watch := w, recs := c } := by
  unfold State.reportStatuses
  split
  · split
    · exact State.takeReport_frame s _
    · exact ⟨s.table, s.mig, _, s.recs, rfl⟩
  · exact ⟨s.table, s.mig, s.watch, s.recs, rfl⟩

@[simp] theorem State.reportStatuses_pwrOk (s : State) (e : OutEntry) (x : Answer) (y : Bool) :
    (s.reportStatuses e x y).pwrOk = s.pwrOk := by
  obtain ⟨_, _, _, _, h⟩ := State.reportStatuses_frame s e x y
  rw [h]

@[simp] theorem State.reportStatuses_prstN (s : State) (e : OutEntry) (x : Answer) (y : Bool) :
    (s.reportStatuses e x y).prstN = s.prstN := by
  obtain ⟨_, _, _, _, h⟩ := State.reportStatuses_frame s e x y
  rw [h]

@[simp] theorem State.reportStatuses_fwe (s : State) (e : OutEntry) (x : Answer) (y : Bool) :
    (s.reportStatuses e x y).fwe = s.fwe := by
  obtain ⟨_, _, _, _, h⟩ := State.reportStatuses_frame s e x y
  rw [h]

@[simp] theorem State.reportStatuses_fuseArray (s : State) (e : OutEntry) (x : Answer) (y : Bool) :
    (s.reportStatuses e x y).fuseArray = s.fuseArray := by
  obtain ⟨_, _, _, _, h⟩ := State.reportStatuses_frame s e x y
  rw [h]

@[simp] theorem State.reportStatuses_clock (s : State) (e : OutEntry) (x : Answer) (y : Bool) :
    (s.reportStatuses e x y).clock = s.clock := by
  obtain ⟨_, _, _, _, h⟩ := State.reportStatuses_frame s e x y
  rw [h]

@[simp] theorem State.reportStatuses_req (s : State) (e : OutEntry) (x : Answer) (y : Bool) :
    (s.reportStatuses e x y).req = s.req := by
  obtain ⟨_, _, _, _, h⟩ := State.reportStatuses_frame s e x y
  rw [h]

@[simp] theorem State.reportStatuses_arb (s : State) (e : OutEntry) (x : Answer) (y : Bool) :
    (s.reportStatuses e x y).arb = s.arb := by
  obtain ⟨_, _, _, _, h⟩ := State.reportStatuses_frame s e x y
  rw [h]

@[simp] theorem State.reportStatuses_patrol (s : State) (e : OutEntry) (x : Answer) (y : Bool) :
    (s.reportStatuses e x y).patrol = s.patrol := by
  obtain ⟨_, _, _, _, h⟩ := State.reportStatuses_frame s e x y
  rw [h]

@[simp] theorem State.reportStatuses_fuse (s : State) (e : OutEntry) (x : Answer) (y : Bool) :
    (s.reportStatuses e x y).fuse = s.fuse := by
  obtain ⟨_, _, _, _, h⟩ := State.reportStatuses_frame s e x y
  rw [h]

@[simp] theorem State.reportStatuses_port (s : State) (e : OutEntry) (x : Answer) (y : Bool) :
    (s.reportStatuses e x y).port = s.port := by
  obtain ⟨_, _, _, _, h⟩ := State.reportStatuses_frame s e x y
  rw [h]

@[simp] theorem State.reportStatuses_upSent (s : State) (e : OutEntry) (x : Answer) (y : Bool) :
    (s.reportStatuses e x y).upSent = s.upSent := by
  obtain ⟨_, _, _, _, h⟩ := State.reportStatuses_frame s e x y
  rw [h]

@[simp] theorem State.reportStatuses_downSent (s : State) (e : OutEntry) (x : Answer) (y : Bool) :
    (s.reportStatuses e x y).downSent = s.downSent := by
  obtain ⟨_, _, _, _, h⟩ := State.reportStatuses_frame s e x y
  rw [h]

@[simp] theorem State.reportStatuses_pending (s : State) (e : OutEntry) (x : Answer) (y : Bool) :
    (s.reportStatuses e x y).pending = s.pending := by
  obtain ⟨_, _, _, _, h⟩ := State.reportStatuses_frame s e x y
  rw [h]

/-! ### State.issue -/

/-- The issue of a slot changes the request unit, the arbiter and the downstream link (R34). -/
theorem State.issue_frame (s : State) (k : Nat) (x : Slot) :
    ∃ (r : RequestUnit) (a : Arbiter) (d : List DownMessage),
      (s.issue k x) = { s with req := r, arb := a, downSent := d } := by
  have h1 : ∀ p, ∃ r a d, s.issueSingle k x p = { s with req := r, arb := a, downSent := d } := by
    intro p
    unfold State.issueSingle
    split
    · exact ⟨_, _, _, rfl⟩
    · exact ⟨s.req, s.arb, s.downSent, rfl⟩
  unfold State.issue
  split
  · exact h1 _
  · exact h1 _
  · exact h1 _
  · unfold State.issueDual
    split
    · dsimp only
      split
      · exact ⟨_, _, _, rfl⟩
      · exact ⟨s.req, s.arb, s.downSent, rfl⟩
    · exact ⟨s.req, s.arb, s.downSent, rfl⟩
  · exact ⟨s.req, s.arb, s.downSent, rfl⟩

@[simp] theorem State.issue_pwrOk (s : State) (k : Nat) (x : Slot) :
    (s.issue k x).pwrOk = s.pwrOk := by
  obtain ⟨_, _, _, h⟩ := State.issue_frame s k x
  rw [h]

@[simp] theorem State.issue_prstN (s : State) (k : Nat) (x : Slot) :
    (s.issue k x).prstN = s.prstN := by
  obtain ⟨_, _, _, h⟩ := State.issue_frame s k x
  rw [h]

@[simp] theorem State.issue_fwe (s : State) (k : Nat) (x : Slot) :
    (s.issue k x).fwe = s.fwe := by
  obtain ⟨_, _, _, h⟩ := State.issue_frame s k x
  rw [h]

@[simp] theorem State.issue_fuseArray (s : State) (k : Nat) (x : Slot) :
    (s.issue k x).fuseArray = s.fuseArray := by
  obtain ⟨_, _, _, h⟩ := State.issue_frame s k x
  rw [h]

@[simp] theorem State.issue_clock (s : State) (k : Nat) (x : Slot) :
    (s.issue k x).clock = s.clock := by
  obtain ⟨_, _, _, h⟩ := State.issue_frame s k x
  rw [h]

@[simp] theorem State.issue_table (s : State) (k : Nat) (x : Slot) :
    (s.issue k x).table = s.table := by
  obtain ⟨_, _, _, h⟩ := State.issue_frame s k x
  rw [h]

@[simp] theorem State.issue_mig (s : State) (k : Nat) (x : Slot) :
    (s.issue k x).mig = s.mig := by
  obtain ⟨_, _, _, h⟩ := State.issue_frame s k x
  rw [h]

@[simp] theorem State.issue_watch (s : State) (k : Nat) (x : Slot) :
    (s.issue k x).watch = s.watch := by
  obtain ⟨_, _, _, h⟩ := State.issue_frame s k x
  rw [h]

@[simp] theorem State.issue_patrol (s : State) (k : Nat) (x : Slot) :
    (s.issue k x).patrol = s.patrol := by
  obtain ⟨_, _, _, h⟩ := State.issue_frame s k x
  rw [h]

@[simp] theorem State.issue_recs (s : State) (k : Nat) (x : Slot) :
    (s.issue k x).recs = s.recs := by
  obtain ⟨_, _, _, h⟩ := State.issue_frame s k x
  rw [h]

@[simp] theorem State.issue_fuse (s : State) (k : Nat) (x : Slot) :
    (s.issue k x).fuse = s.fuse := by
  obtain ⟨_, _, _, h⟩ := State.issue_frame s k x
  rw [h]

@[simp] theorem State.issue_port (s : State) (k : Nat) (x : Slot) :
    (s.issue k x).port = s.port := by
  obtain ⟨_, _, _, h⟩ := State.issue_frame s k x
  rw [h]

@[simp] theorem State.issue_upSent (s : State) (k : Nat) (x : Slot) :
    (s.issue k x).upSent = s.upSent := by
  obtain ⟨_, _, _, h⟩ := State.issue_frame s k x
  rw [h]

@[simp] theorem State.issue_pending (s : State) (k : Nat) (x : Slot) :
    (s.issue k x).pending = s.pending := by
  obtain ⟨_, _, _, h⟩ := State.issue_frame s k x
  rw [h]

/-! ### State.grantRelay -/

/-- A relay grant changes the request unit, the arbiter and the downstream link (R35, R36). -/
theorem State.grantRelay_frame (s : State) :
    ∃ (r : RequestUnit) (a : Arbiter) (d : List DownMessage),
      s.grantRelay = { s with req := r, arb := a, downSent := d } := by
  unfold State.grantRelay
  split
  · split
    · rename_i x _
      obtain ⟨r, a, d, h⟩ := State.issue_frame s _ x
      rw [h]
      obtain ⟨r', h'⟩ := State.headTested_frame (State.setWait { s with req := r, arb := a, downSent := d } s.waitAfterRelay)
      exact ⟨r', _, _, by rw [h']; rfl⟩
    · exact ⟨s.req, s.arb, s.downSent, rfl⟩
  · exact ⟨s.req, s.arb, s.downSent, rfl⟩

@[simp] theorem State.grantRelay_pwrOk (s : State) :
    s.grantRelay.pwrOk = s.pwrOk := by
  obtain ⟨_, _, _, h⟩ := State.grantRelay_frame s
  rw [h]

@[simp] theorem State.grantRelay_prstN (s : State) :
    s.grantRelay.prstN = s.prstN := by
  obtain ⟨_, _, _, h⟩ := State.grantRelay_frame s
  rw [h]

@[simp] theorem State.grantRelay_fwe (s : State) :
    s.grantRelay.fwe = s.fwe := by
  obtain ⟨_, _, _, h⟩ := State.grantRelay_frame s
  rw [h]

@[simp] theorem State.grantRelay_fuseArray (s : State) :
    s.grantRelay.fuseArray = s.fuseArray := by
  obtain ⟨_, _, _, h⟩ := State.grantRelay_frame s
  rw [h]

@[simp] theorem State.grantRelay_clock (s : State) :
    s.grantRelay.clock = s.clock := by
  obtain ⟨_, _, _, h⟩ := State.grantRelay_frame s
  rw [h]

@[simp] theorem State.grantRelay_table (s : State) :
    s.grantRelay.table = s.table := by
  obtain ⟨_, _, _, h⟩ := State.grantRelay_frame s
  rw [h]

@[simp] theorem State.grantRelay_mig (s : State) :
    s.grantRelay.mig = s.mig := by
  obtain ⟨_, _, _, h⟩ := State.grantRelay_frame s
  rw [h]

@[simp] theorem State.grantRelay_watch (s : State) :
    s.grantRelay.watch = s.watch := by
  obtain ⟨_, _, _, h⟩ := State.grantRelay_frame s
  rw [h]

@[simp] theorem State.grantRelay_patrol (s : State) :
    s.grantRelay.patrol = s.patrol := by
  obtain ⟨_, _, _, h⟩ := State.grantRelay_frame s
  rw [h]

@[simp] theorem State.grantRelay_recs (s : State) :
    s.grantRelay.recs = s.recs := by
  obtain ⟨_, _, _, h⟩ := State.grantRelay_frame s
  rw [h]

@[simp] theorem State.grantRelay_fuse (s : State) :
    s.grantRelay.fuse = s.fuse := by
  obtain ⟨_, _, _, h⟩ := State.grantRelay_frame s
  rw [h]

@[simp] theorem State.grantRelay_port (s : State) :
    s.grantRelay.port = s.port := by
  obtain ⟨_, _, _, h⟩ := State.grantRelay_frame s
  rw [h]

@[simp] theorem State.grantRelay_upSent (s : State) :
    s.grantRelay.upSent = s.upSent := by
  obtain ⟨_, _, _, h⟩ := State.grantRelay_frame s
  rw [h]

@[simp] theorem State.grantRelay_pending (s : State) :
    s.grantRelay.pending = s.pending := by
  obtain ⟨_, _, _, h⟩ := State.grantRelay_frame s
  rw [h]

/-! ### State.grant -/

/-- A grant changes the request unit, the arbiter, the migration unit, the patrol unit and the downstream link
(R54). -/
theorem State.grant_frame (s : State) (x : Winner) :
    ∃ (r : RequestUnit) (a : Arbiter) (m : MigrationUnit) (p : PatrolUnit) (d : List DownMessage),
      (s.grant x) = { s with req := r, arb := a, mig := m, patrol := p, downSent := d } := by
  unfold State.grant
  split
  · obtain ⟨r, a, d, h⟩ := State.grantRelay_frame s
    exact ⟨r, a, s.mig, s.patrol, d, h⟩
  · unfold State.grantCopy
    split
    · exact ⟨s.req, _, _, s.patrol, _, rfl⟩
    · exact ⟨s.req, _, _, s.patrol, _, rfl⟩
    · exact ⟨s.req, s.arb, s.mig, s.patrol, s.downSent, rfl⟩
  · unfold State.grantPatrol
    split
    · exact ⟨s.req, _, s.mig, _, _, rfl⟩
    · exact ⟨s.req, s.arb, s.mig, s.patrol, s.downSent, rfl⟩

@[simp] theorem State.grant_pwrOk (s : State) (x : Winner) :
    (s.grant x).pwrOk = s.pwrOk := by
  obtain ⟨_, _, _, _, _, h⟩ := State.grant_frame s x
  rw [h]

@[simp] theorem State.grant_prstN (s : State) (x : Winner) :
    (s.grant x).prstN = s.prstN := by
  obtain ⟨_, _, _, _, _, h⟩ := State.grant_frame s x
  rw [h]

@[simp] theorem State.grant_fwe (s : State) (x : Winner) :
    (s.grant x).fwe = s.fwe := by
  obtain ⟨_, _, _, _, _, h⟩ := State.grant_frame s x
  rw [h]

@[simp] theorem State.grant_fuseArray (s : State) (x : Winner) :
    (s.grant x).fuseArray = s.fuseArray := by
  obtain ⟨_, _, _, _, _, h⟩ := State.grant_frame s x
  rw [h]

@[simp] theorem State.grant_clock (s : State) (x : Winner) :
    (s.grant x).clock = s.clock := by
  obtain ⟨_, _, _, _, _, h⟩ := State.grant_frame s x
  rw [h]

@[simp] theorem State.grant_table (s : State) (x : Winner) :
    (s.grant x).table = s.table := by
  obtain ⟨_, _, _, _, _, h⟩ := State.grant_frame s x
  rw [h]

@[simp] theorem State.grant_watch (s : State) (x : Winner) :
    (s.grant x).watch = s.watch := by
  obtain ⟨_, _, _, _, _, h⟩ := State.grant_frame s x
  rw [h]

@[simp] theorem State.grant_recs (s : State) (x : Winner) :
    (s.grant x).recs = s.recs := by
  obtain ⟨_, _, _, _, _, h⟩ := State.grant_frame s x
  rw [h]

@[simp] theorem State.grant_fuse (s : State) (x : Winner) :
    (s.grant x).fuse = s.fuse := by
  obtain ⟨_, _, _, _, _, h⟩ := State.grant_frame s x
  rw [h]

@[simp] theorem State.grant_port (s : State) (x : Winner) :
    (s.grant x).port = s.port := by
  obtain ⟨_, _, _, _, _, h⟩ := State.grant_frame s x
  rw [h]

@[simp] theorem State.grant_upSent (s : State) (x : Winner) :
    (s.grant x).upSent = s.upSent := by
  obtain ⟨_, _, _, _, _, h⟩ := State.grant_frame s x
  rw [h]

@[simp] theorem State.grant_pending (s : State) (x : Winner) :
    (s.grant x).pending = s.pending := by
  obtain ⟨_, _, _, _, _, h⟩ := State.grant_frame s x
  rw [h]

/-! ### State.takeGrant -/

/-- A grant of the arbiter changes the request unit, the arbiter, the migration unit, the patrol unit and the
downstream link (R54, R57). -/
theorem State.takeGrant_frame (s : State) :
    ∃ (r : RequestUnit) (a : Arbiter) (m : MigrationUnit) (p : PatrolUnit) (d : List DownMessage),
      s.takeGrant = { s with req := r, arb := a, mig := m, patrol := p, downSent := d } := by
  have hg : ∀ x, ∃ r a m p d, (s.headTested.grant x) =
      { s with req := r, arb := a, mig := m, patrol := p, downSent := d } := by
    intro x
    obtain ⟨r, a, m, p, d, h⟩ := State.grant_frame s.headTested x
    obtain ⟨r', h'⟩ := State.headTested_frame s
    exact ⟨r, a, m, p, d, by rw [h, h']⟩
  unfold State.takeGrant
  split
  · exact ⟨s.req, s.arb, s.mig, s.patrol, s.downSent, rfl⟩
  · split
    · split
      · obtain ⟨r, h⟩ := State.headTested_frame s
        exact ⟨r, s.arb, s.mig, s.patrol, s.downSent, h⟩
      · exact hg _
    · exact State.grant_frame s .relay
  · exact State.grant_frame s _

@[simp] theorem State.takeGrant_pwrOk (s : State) :
    s.takeGrant.pwrOk = s.pwrOk := by
  obtain ⟨_, _, _, _, _, h⟩ := State.takeGrant_frame s
  rw [h]

@[simp] theorem State.takeGrant_prstN (s : State) :
    s.takeGrant.prstN = s.prstN := by
  obtain ⟨_, _, _, _, _, h⟩ := State.takeGrant_frame s
  rw [h]

@[simp] theorem State.takeGrant_fwe (s : State) :
    s.takeGrant.fwe = s.fwe := by
  obtain ⟨_, _, _, _, _, h⟩ := State.takeGrant_frame s
  rw [h]

@[simp] theorem State.takeGrant_fuseArray (s : State) :
    s.takeGrant.fuseArray = s.fuseArray := by
  obtain ⟨_, _, _, _, _, h⟩ := State.takeGrant_frame s
  rw [h]

@[simp] theorem State.takeGrant_clock (s : State) :
    s.takeGrant.clock = s.clock := by
  obtain ⟨_, _, _, _, _, h⟩ := State.takeGrant_frame s
  rw [h]

@[simp] theorem State.takeGrant_table (s : State) :
    s.takeGrant.table = s.table := by
  obtain ⟨_, _, _, _, _, h⟩ := State.takeGrant_frame s
  rw [h]

@[simp] theorem State.takeGrant_watch (s : State) :
    s.takeGrant.watch = s.watch := by
  obtain ⟨_, _, _, _, _, h⟩ := State.takeGrant_frame s
  rw [h]

@[simp] theorem State.takeGrant_recs (s : State) :
    s.takeGrant.recs = s.recs := by
  obtain ⟨_, _, _, _, _, h⟩ := State.takeGrant_frame s
  rw [h]

@[simp] theorem State.takeGrant_fuse (s : State) :
    s.takeGrant.fuse = s.fuse := by
  obtain ⟨_, _, _, _, _, h⟩ := State.takeGrant_frame s
  rw [h]

@[simp] theorem State.takeGrant_port (s : State) :
    s.takeGrant.port = s.port := by
  obtain ⟨_, _, _, _, _, h⟩ := State.takeGrant_frame s
  rw [h]

@[simp] theorem State.takeGrant_upSent (s : State) :
    s.takeGrant.upSent = s.upSent := by
  obtain ⟨_, _, _, _, _, h⟩ := State.takeGrant_frame s
  rw [h]

@[simp] theorem State.takeGrant_pending (s : State) :
    s.takeGrant.pending = s.pending := by
  obtain ⟨_, _, _, _, _, h⟩ := State.takeGrant_frame s
  rw [h]

/-! ### State.startRequest -/

/-- A start changes the table, the migration unit, the suspect table and the records (R72, R73). -/
theorem State.startRequest_frame (s : State) (i : Nat) (x : RetireRequest) :
    ∃ (t : List Entry) (m : MigrationUnit) (w : WatchUnit) (c : RecordUnit),
      (s.startRequest i x) = { s with table := t, mig := m, watch := w, recs := c } := by
  unfold State.startRequest
  dsimp only
  split
  · exact ⟨_, _, s.watch, s.recs, rfl⟩
  · split
    · exact ⟨s.table, _, _, _, rfl⟩
    · exact ⟨s.table, _, s.watch, _, rfl⟩

@[simp] theorem State.startRequest_pwrOk (s : State) (i : Nat) (x : RetireRequest) :
    (s.startRequest i x).pwrOk = s.pwrOk := by
  obtain ⟨_, _, _, _, h⟩ := State.startRequest_frame s i x
  rw [h]

@[simp] theorem State.startRequest_prstN (s : State) (i : Nat) (x : RetireRequest) :
    (s.startRequest i x).prstN = s.prstN := by
  obtain ⟨_, _, _, _, h⟩ := State.startRequest_frame s i x
  rw [h]

@[simp] theorem State.startRequest_fwe (s : State) (i : Nat) (x : RetireRequest) :
    (s.startRequest i x).fwe = s.fwe := by
  obtain ⟨_, _, _, _, h⟩ := State.startRequest_frame s i x
  rw [h]

@[simp] theorem State.startRequest_fuseArray (s : State) (i : Nat) (x : RetireRequest) :
    (s.startRequest i x).fuseArray = s.fuseArray := by
  obtain ⟨_, _, _, _, h⟩ := State.startRequest_frame s i x
  rw [h]

@[simp] theorem State.startRequest_clock (s : State) (i : Nat) (x : RetireRequest) :
    (s.startRequest i x).clock = s.clock := by
  obtain ⟨_, _, _, _, h⟩ := State.startRequest_frame s i x
  rw [h]

@[simp] theorem State.startRequest_req (s : State) (i : Nat) (x : RetireRequest) :
    (s.startRequest i x).req = s.req := by
  obtain ⟨_, _, _, _, h⟩ := State.startRequest_frame s i x
  rw [h]

@[simp] theorem State.startRequest_arb (s : State) (i : Nat) (x : RetireRequest) :
    (s.startRequest i x).arb = s.arb := by
  obtain ⟨_, _, _, _, h⟩ := State.startRequest_frame s i x
  rw [h]

@[simp] theorem State.startRequest_patrol (s : State) (i : Nat) (x : RetireRequest) :
    (s.startRequest i x).patrol = s.patrol := by
  obtain ⟨_, _, _, _, h⟩ := State.startRequest_frame s i x
  rw [h]

@[simp] theorem State.startRequest_fuse (s : State) (i : Nat) (x : RetireRequest) :
    (s.startRequest i x).fuse = s.fuse := by
  obtain ⟨_, _, _, _, h⟩ := State.startRequest_frame s i x
  rw [h]

@[simp] theorem State.startRequest_port (s : State) (i : Nat) (x : RetireRequest) :
    (s.startRequest i x).port = s.port := by
  obtain ⟨_, _, _, _, h⟩ := State.startRequest_frame s i x
  rw [h]

@[simp] theorem State.startRequest_upSent (s : State) (i : Nat) (x : RetireRequest) :
    (s.startRequest i x).upSent = s.upSent := by
  obtain ⟨_, _, _, _, h⟩ := State.startRequest_frame s i x
  rw [h]

@[simp] theorem State.startRequest_downSent (s : State) (i : Nat) (x : RetireRequest) :
    (s.startRequest i x).downSent = s.downSent := by
  obtain ⟨_, _, _, _, h⟩ := State.startRequest_frame s i x
  rw [h]

@[simp] theorem State.startRequest_pending (s : State) (i : Nat) (x : RetireRequest) :
    (s.startRequest i x).pending = s.pending := by
  obtain ⟨_, _, _, _, h⟩ := State.startRequest_frame s i x
  rw [h]

/-! ### State.endVerify -/

/-- The end of VERIFYING changes the table, the migration unit's start event, the fuse unit and the records (R164,
R165). -/
theorem State.endVerify_frame (s : State) (k : Nat) (x : FuseRecord) :
    ∃ (t : List Entry) (m : MigrationUnit) (c : RecordUnit) (f : FuseUnit),
      (s.endVerify k x) = { s with table := t, mig := m, recs := c, fuse := f } := by
  exact ⟨_, _, _, _, rfl⟩

@[simp] theorem State.endVerify_pwrOk (s : State) (k : Nat) (x : FuseRecord) :
    (s.endVerify k x).pwrOk = s.pwrOk := by
  obtain ⟨_, _, _, _, h⟩ := State.endVerify_frame s k x
  rw [h]

@[simp] theorem State.endVerify_prstN (s : State) (k : Nat) (x : FuseRecord) :
    (s.endVerify k x).prstN = s.prstN := by
  obtain ⟨_, _, _, _, h⟩ := State.endVerify_frame s k x
  rw [h]

@[simp] theorem State.endVerify_fwe (s : State) (k : Nat) (x : FuseRecord) :
    (s.endVerify k x).fwe = s.fwe := by
  obtain ⟨_, _, _, _, h⟩ := State.endVerify_frame s k x
  rw [h]

@[simp] theorem State.endVerify_fuseArray (s : State) (k : Nat) (x : FuseRecord) :
    (s.endVerify k x).fuseArray = s.fuseArray := by
  obtain ⟨_, _, _, _, h⟩ := State.endVerify_frame s k x
  rw [h]

@[simp] theorem State.endVerify_clock (s : State) (k : Nat) (x : FuseRecord) :
    (s.endVerify k x).clock = s.clock := by
  obtain ⟨_, _, _, _, h⟩ := State.endVerify_frame s k x
  rw [h]

@[simp] theorem State.endVerify_req (s : State) (k : Nat) (x : FuseRecord) :
    (s.endVerify k x).req = s.req := by
  obtain ⟨_, _, _, _, h⟩ := State.endVerify_frame s k x
  rw [h]

@[simp] theorem State.endVerify_arb (s : State) (k : Nat) (x : FuseRecord) :
    (s.endVerify k x).arb = s.arb := by
  obtain ⟨_, _, _, _, h⟩ := State.endVerify_frame s k x
  rw [h]

@[simp] theorem State.endVerify_watch (s : State) (k : Nat) (x : FuseRecord) :
    (s.endVerify k x).watch = s.watch := by
  obtain ⟨_, _, _, _, h⟩ := State.endVerify_frame s k x
  rw [h]

@[simp] theorem State.endVerify_patrol (s : State) (k : Nat) (x : FuseRecord) :
    (s.endVerify k x).patrol = s.patrol := by
  obtain ⟨_, _, _, _, h⟩ := State.endVerify_frame s k x
  rw [h]

@[simp] theorem State.endVerify_port (s : State) (k : Nat) (x : FuseRecord) :
    (s.endVerify k x).port = s.port := by
  obtain ⟨_, _, _, _, h⟩ := State.endVerify_frame s k x
  rw [h]

@[simp] theorem State.endVerify_upSent (s : State) (k : Nat) (x : FuseRecord) :
    (s.endVerify k x).upSent = s.upSent := by
  obtain ⟨_, _, _, _, h⟩ := State.endVerify_frame s k x
  rw [h]

@[simp] theorem State.endVerify_downSent (s : State) (k : Nat) (x : FuseRecord) :
    (s.endVerify k x).downSent = s.downSent := by
  obtain ⟨_, _, _, _, h⟩ := State.endVerify_frame s k x
  rw [h]

@[simp] theorem State.endVerify_pending (s : State) (k : Nat) (x : FuseRecord) :
    (s.endVerify k x).pending = s.pending := by
  obtain ⟨_, _, _, _, h⟩ := State.endVerify_frame s k x
  rw [h]

end Sys2Proof.Machine
end

