-- ==== Sys2Proof/Laws/Port.lean ====
section
/-! SUPPORT. What `powered`, `atPort` and `command` can do, for the commands to cite. -/

namespace Sys2Proof.Machine

/-- While PWR_OK is high an event is taken. -/
@[simp] theorem powered_of_high {s : State} (h : s.pwrOk = true) (f : State → State) : powered s f = f s := by
  simp [powered, h]

/-- While PWR_OK is low no event is taken (R153). -/
@[simp] theorem powered_of_low {s : State} (h : s.pwrOk = false) (f : State → State) : powered s f = s := by
  simp [powered, h]

/-- While frames are taken, a rise of MCS_N ends one (R173). -/
@[simp] theorem atPort_of_takes {s : State} (h : s.takesFrames) (f : State → State) : atPort s f = f s := by
  simp [atPort, h.1, h.2]

/-- The rise of an MCS_N that has been low since the rise of PWR_OK ends no frame (R173). -/
@[simp] theorem atPort_of_noFrame {s : State} (hp : s.pwrOk = true) (h : s.port.mcs = .lowNoFrame)
    (f : State → State) : atPort s f = s.raiseMcs := by
  simp [atPort, hp, h]

/-- While PWR_OK is low the port takes no event (R173). -/
@[simp] theorem atPort_of_low {s : State} (h : s.pwrOk = false) (f : State → State) : atPort s f = s := by
  simp [atPort, h]

/-- The state after a command has been answered, in terms of the held result (R180). -/
theorem holdResult_eq_answered (s : State) (c : Command) (n : Nat) (r : ResultCode) (payload : List Byte) :
    s.holdResult c.code r payload (n + 3) = s.answered c n r payload := rfl

/-- During LOADING every command but GET_STATUS is answered NOT_READY, with no other effect (R182, R185). -/
theorem command_loading {c : Command} {args : List Byte} {s : State} {run : State → Reply} (hp : s.takesFrames)
    (hr : s.isReady = false) (hc : c ≠ .getStatus) :
    command c args s run = s.answered c args.length .notReady [] := by
  rw [command, atPort_of_takes hp, if_pos ⟨hr, hc⟩]
  rfl

/-- A wrong argument length is answered RANGE, with no other effect (R182). -/
theorem command_badLength {c : Command} {args : List Byte} {s : State} {run : State → Reply} (hp : s.takesFrames)
    (hr : s.isReady = true) (hn : args.length ∉ c.lengths) :
    command c args s run = s.answered c args.length .range [] := by
  rw [command, atPort_of_takes hp, if_neg (fun h => Bool.false_ne_true (h.1.symm.trans hr)), if_pos hn]
  rfl

/-- A command that passes the common checks is answered by its owning rule (R182). -/
theorem command_runs {c : Command} {args : List Byte} {s : State} {run : State → Reply} (hp : s.takesFrames)
    (hr : s.isReady = true ∨ c = .getStatus) (hn : args.length ∈ c.lengths) :
    command c args s run = (run s).after.answered c args.length (run s).result (run s).payload := by
  have h : ¬(s.isReady = false ∧ c ≠ .getStatus) := by
    rcases hr with h | h <;> simp [h]
  simp only [command, atPort_of_takes hp, if_neg h, if_neg (not_not_intro hn)]
  rfl

/-- Everything `command` can do: nothing while PWR_OK is low, MCS_N high again where no frame was open, else an answer to the
state or to what the owning rule leaves. -/
theorem command_cases (c : Command) (args : List Byte) (s : State) (run : State → Reply) :
    (s.pwrOk = false ∧ command c args s run = s) ∨
      (s.pwrOk = true ∧ s.port.mcs = .lowNoFrame ∧ command c args s run = s.raiseMcs) ∨
      (s.takesFrames ∧ ∃ r, (r = .notReady ∨ r = .range) ∧ command c args s run = s.answered c args.length r []) ∨
      (s.takesFrames ∧ (s.isReady = true ∨ c = .getStatus) ∧ args.length ∈ c.lengths ∧
        command c args s run = (run s).after.answered c args.length (run s).result (run s).payload) := by
  rcases hp : s.pwrOk with _ | _
  · exact Or.inl ⟨rfl, atPort_of_low hp _⟩
  refine Or.inr ?_
  rcases hm : s.port.mcs with _ | _
  · refine Or.inr ?_
    have ht : s.takesFrames := ⟨hp, hm⟩
    by_cases hr : s.isReady = true ∨ c = .getStatus
    · by_cases hn : args.length ∈ c.lengths
      · exact Or.inr ⟨ht, hr, hn, command_runs ht hr hn⟩
      · refine Or.inl ⟨ht, .range, Or.inr rfl, ?_⟩
        have h : ¬(s.isReady = false ∧ c ≠ .getStatus) := by rcases hr with h | h <;> simp [h]
        simp only [command, atPort_of_takes ht, if_neg h, if_pos hn]
        rfl
    · push Not at hr
      exact Or.inl ⟨ht, .notReady, Or.inl rfl, command_loading ht (by simpa using hr.1) hr.2⟩
  · exact Or.inl ⟨rfl, rfl, atPort_of_noFrame hp hm _⟩

end Sys2Proof.Machine
end

