-- ==== Sys2Proof/Laws/Table.lean ====
section
/-! SUPPORT. What a lookup in the remap table answers, and what an update of one entry changes. -/

namespace Sys2Proof.Machine

/-- The entry just written. -/
theorem entryAt_set_self {t : List Entry} {k : Nat} (h : k < t.length) (e : Entry) : entryAt (t.set k e) k = e := by
  simp [entryAt, List.getD, h]

/-- Another entry is untouched by a write. -/
theorem entryAt_set_ne {t : List Entry} {k j : Nat} (h : k ≠ j) (e : Entry) : entryAt (t.set k e) j = entryAt t j := by
  simp [entryAt, List.getD, List.getElem?_set_ne h]

/-- An entry beyond the table reads FREE. -/
theorem entryAt_of_ge {t : List Entry} {k : Nat} (h : t.length ≤ k) : entryAt t k = .free := by
  simp [entryAt, List.getD, h]

/-- An entry within the table is its element. -/
theorem entryAt_eq_getElem {t : List Entry} {k : Nat} (h : k < t.length) : entryAt t k = t[k] := by
  simp [entryAt, List.getD, h]

/-- The spare found SOFT for L has an entry in SOFT naming L (R6). -/
theorem entryAt_of_softFor {t : List Entry} {l k : Nat} (h : softFor t l = some k) :
    k < t.length ∧ ∃ c, entryAt t k = .soft l c := by
  obtain ⟨hk, hp, -⟩ := List.findIdx?_eq_some_iff_getElem.mp h
  refine ⟨hk, ?_⟩
  rw [entryAt_eq_getElem hk]
  cases he : t[k] <;> simp_all

/-- The spare found HARD for L has an entry in HARD naming L (R6). -/
theorem entryAt_of_hardFor {t : List Entry} {l k : Nat} (h : hardFor t l = some k) :
    k < t.length ∧ ∃ c, entryAt t k = .hard l c := by
  obtain ⟨hk, hp, -⟩ := List.findIdx?_eq_some_iff_getElem.mp h
  refine ⟨hk, ?_⟩
  rw [entryAt_eq_getElem hk]
  cases he : t[k] <;> simp_all

/-- With no spare found SOFT for L, no entry in SOFT names L. -/
theorem softFor_eq_none {t : List Entry} {l : Nat} : softFor t l = none ↔ ∀ c, Entry.soft l c ∉ t := by
  unfold softFor
  rw [List.findIdx?_eq_none_iff]
  constructor
  · intro h c hc
    simpa using h _ hc
  · intro h e he
    cases e <;> simp
    rintro rfl
    exact h _ he

/-- With no spare found HARD for L, no entry in HARD names L. -/
theorem hardFor_eq_none {t : List Entry} {l : Nat} : hardFor t l = none ↔ ∀ k, Entry.hard l k ∉ t := by
  unfold hardFor
  rw [List.findIdx?_eq_none_iff]
  constructor
  · intro h c hc
    simpa using h _ hc
  · intro h e he
    cases e <;> simp
    rintro rfl
    exact h _ he

/-- The length of the table after a commit (R11). -/
@[simp] theorem length_commitTable (limit : Nat) (t : List Entry) (m : Move) :
    (commitTable limit t m).length = t.length := by
  unfold commitTable
  split <;> simp

/-- The length of the table after MAP_SOFT (R21). -/
@[simp] theorem length_mapSoftTable (t : List Entry) (l k : Nat) : (mapSoftTable t l k).length = t.length := by
  unfold mapSoftTable
  split <;> simp

/-- A spare an eligible search finds is FREE, in the pool, and has no traffic in flight (R10). -/
theorem eligibleSpare_spec {s : State} {k : Nat} (h : s.eligibleSpare = some k) :
    k < 128 ∧ entryAt s.table k = .free ∧ s.spareInFlight k = false := by
  unfold State.eligibleSpare at h
  have h1 := List.find?_some h
  have h2 := List.mem_of_find?_eq_some h
  simp only [Bool.and_eq_true, beq_iff_eq, Bool.not_eq_true'] at h1
  exact ⟨by simpa [Config.spares] using h2, h1.1, h1.2⟩

end Sys2Proof.Machine
end

