-- ==== Sys2Proof/Laws/Request.lean ====
section
/-! SUPPORT. What the shared operations of request unit and migration unit do: the hold test, the return of the held slots,
and the removal of a request-path write. -/

namespace Sys2Proof.Machine

/-! ### The hold test (R31) -/

/-- A slot is in use exactly when the tracker holds it. -/
theorem State.slot?_eq_some {s : State} {k : Nat} {x : Slot} : s.slot? k = some x ↔ s.req.slots[k]? = some (some x) := by
  unfold State.slot?
  rw [List.getD_eq_getElem?_getD]
  cases s.req.slots[k]? <;> simp

/-- The hold test of a slot is the one of the statements. -/
theorem State.held_iff (s : State) (k : Nat) : s.held k = true ↔ s.mig.context.mayHold s.req s.req.hold k := by
  unfold State.held Context.mayHold
  simp only [← State.slot?_eq_some]
  cases s.slot? k <;> simp [State.holdTest]

/-- The place test is the one of the statements. -/
theorem RequestUnit.holdHasRoom_iff (r : RequestUnit) : r.holdHasRoom = true ↔ r.hold.length < 4 := by
  rw [RequestUnit.holdHasRoom, decide_eq_true_iff]
  rfl

/-- The stall is the one of the statements. -/
theorem State.stalled_iff (s : State) : s.stalled = true ↔ s.waitsForRoom := by
  unfold State.stalled State.waitsForRoom
  cases s.req.relay with
  | nil => simp
  | cons k rest =>
    have h := s.held_iff k
    have r := s.req.holdHasRoom_iff
    simp only [Bool.and_eq_true, Bool.not_eq_true', ← Bool.not_eq_true, h, r, Nat.not_lt]
    constructor
    · exact fun x => ⟨k, rest, rfl, x⟩
    · rintro ⟨_, _, e, x⟩
      cases e
      exact x

/-- No slot moves when the head is not held or finds no room. -/
theorem Context.holdTested_refl {c : Context} {v : RequestUnit}
    (h : ∀ k b, v.relay = k :: b → ¬c.mayHold v v.hold k ∨ 4 ≤ v.hold.length) : c.holdTested v v :=
  ⟨[], rfl, by simp, rfl, fun _ _ => rfl, by simp, by simp, h⟩

/-- A move of slots to the hold buffer changes no slot's address or kind, so it answers the hold test alike. -/
theorem Context.mayHold_moved {c : Context} {r : RequestUnit} {hold : List Nat} {j k : Nat} {relay newHold : List Nat} :
    c.mayHold
        { r with
          slots := r.slots.modify j (Option.map fun x => { x with state := .held }), relay := relay, hold := newHold }
        hold k ↔
      c.mayHold r hold k := by
  unfold Context.mayHold
  simp only [List.getElem?_modify]
  by_cases h : j = k
  · subst h
    cases r.slots[j]? with
    | none => simp
    | some o => cases o <;> simp [Slot.l, Slot.q]
  · simp [h]

/-- A head that is held and finds room moves first; the test goes on with the next head. -/
theorem Context.holdTested_cons {c : Context} {v w : RequestUnit} {k : Nat} {rest : List Nat} (hr : v.relay = k :: rest)
    (hk : c.mayHold v v.hold k) (room : v.hold.length < 4)
    (h : c.holdTested
      { v with
        slots := v.slots.modify k (Option.map fun x => { x with state := .held }), relay := rest, hold := v.hold ++ [k] }
      w) :
    c.holdTested v w := by
  obtain ⟨moved, h1, h2, h3, h4, h5, h6, h7⟩ := h
  refine ⟨k :: moved, by simpa [hr] using h1, by simpa using h2, h3, ?_, ?_, ?_, ?_⟩
  · intro j hj
    rw [List.mem_cons, not_or] at hj
    rw [h4 j hj.2]
    simp only [List.getElem?_modify, Ne.symm hj.1, if_false]
    cases v.slots[j]? <;> rfl
  · intro j hj x hx
    by_cases hm : j ∈ moved
    · by_cases e : k = j
      · subst e
        exact h5 k hm { x with state := .held } (by simp [hx])
      · exact h5 j hm x (by simp [hx, e])
    · have e : j = k := by simpa [hm] using hj
      subst e
      rw [h4 j hm]
      simp [hx]
  · intro a j b e
    cases a with
    | nil =>
      cases e
      simpa using And.intro hk room
    | cons i a =>
      cases e
      have h8 := h6 a j b rfl
      simpa using And.intro (mayHold_moved.mp h8.1) h8.2
  · intro j b e
    exact (h7 j b e).imp_left (mt mayHold_moved.mpr)

/-- The hold test of as many heads as there are free places leaves the request unit tested. -/
theorem State.testHead_holdTested (n : Nat) (s : State) (h : 4 ≤ n + s.req.hold.length) :
    s.mig.context.holdTested s.req (testHead n s).req := by
  induction n generalizing s with
  | zero => exact Context.holdTested_refl fun _ _ _ => .inr (by simpa using h)
  | succ n ih =>
    unfold testHead
    split
    · rename_i k rest hr
      split
      · rename_i hk
        rw [Bool.and_eq_true, s.held_iff, s.req.holdHasRoom_iff] at hk
        exact Context.holdTested_cons hr hk.1 hk.2
          (ih (s.moveToHold k rest) (by simp [State.moveToHold]; omega))
      · rename_i hk
        refine Context.holdTested_refl fun j b e => ?_
        rw [hr] at e
        cases e
        rw [Bool.and_eq_true, s.held_iff, s.req.holdHasRoom_iff, not_and_or, Nat.not_lt] at hk
        exact hk
    · rename_i hr
      exact Context.holdTested_refl fun j b e => by simp [hr] at e

/-- The hold test made when a slot has become head does what R31 says, to the request unit alone. -/
theorem State.headTested_holdTested (s : State) :
    s.mig.context.holdTested s.req s.headTested.req ∧ { s.headTested with req := s.req } = s := by
  refine ⟨s.testHead_holdTested _ (by simp [Config.holdPlaces]), ?_⟩
  obtain ⟨r, h⟩ := State.headTested_frame s
  rw [h]

/-! ### The return of the held slots (R33, R81) -/

/-- The slots after a list of them has been set to QUEUED. -/
theorem getElem?_foldl_queued (hold : List Nat) (t : List (Option Slot)) (k : Nat) :
    (hold.foldl (fun t j => t.modify j (Option.map fun x => { x with state := .queued })) t)[k]? =
      if k ∈ hold then t[k]?.map (Option.map fun x => { x with state := .queued }) else t[k]? := by
  induction hold generalizing t with
  | nil => simp
  | cons j hold ih =>
    rw [List.foldl_cons, ih]
    simp only [List.getElem?_modify, List.mem_cons]
    by_cases e : j = k
    · subst e
      by_cases m : j ∈ hold <;> cases t[j]? with
      | none => simp
      | some o => cases o <;> simp [m]
    · have e2 : k ≠ j := fun h => e h.symm
      by_cases m : k ∈ hold <;> simp [e, e2, m]

/-- The held slots return as R33 says, and nothing else changes. -/
theorem State.returnHeld_heldReturned (s : State) :
    s.heldReturned s.returnHeld ∧ { s.returnHeld with req := s.req } = s := by
  refine ⟨⟨rfl, rfl, rfl, ?_, ?_⟩, rfl⟩
  · intro k hk
    simp [State.returnHeld, getElem?_foldl_queued, hk]
  · intro k x hk hx
    simp [State.returnHeld, getElem?_foldl_queued, hk, hx]

/-! ### The removal of a request-path write (R53, R77, R84, R85) -/

/-- A request-path write is one of a tracker slot. -/
theorem OutEntry.isRequestWrite_iff (e : OutEntry) :
    e.isRequestWrite = true ↔ (∃ k, e.owner = .request k) ∧ e.dir = .write := by
  unfold OutEntry.isRequestWrite
  cases e.owner <;> cases e.dir <;> simp

/-- The drain test of a quad is the one of the statements. -/
theorem State.writeToQuad_iff (s : State) (p q : Nat) : s.writeToQuad p q = true ↔ s.drainsQuad p q := by
  simp [State.writeToQuad, State.drainsQuad, OutEntry.isRequestWrite_iff, and_assoc]

/-- The drain test of a block is the one of the statements. -/
theorem State.writeToBlock_iff (s : State) (p : Nat) : s.writeToBlock p = true ↔ s.drainsBlock p := by
  simp [State.writeToBlock, State.drainsBlock, OutEntry.isRequestWrite_iff, and_assoc]

/-- Where no entry names the block, the search for its entry finds none. -/
theorem suspectPos_none {w : WatchUnit} {p : Nat} (h : p ∉ w.blocks) : suspectPos w.suspects p = none := by
  unfold suspectPos
  rw [List.findIdx?_eq_none_iff]
  rintro (_ | e) hx
  · rfl
  · have : e.block ≠ p := fun hp => h (List.mem_filterMap.mpr ⟨some e, hx, by simp [hp]⟩)
    simpa using this

/-- The entry that names a block is the one the search for it finds, since no two name one block (R99). -/
theorem suspectPos_of_nodup {w : WatchUnit} {p i : Nat} {e : Suspect} (h : w.blocks.Nodup)
    (hi : w.suspects[i]? = some (some e)) (he : e.block = p) : suspectPos w.suspects p = some i := by
  obtain ⟨hlt, hg⟩ := List.getElem?_eq_some_iff.mp hi
  unfold suspectPos
  rw [List.findIdx?_eq_some_iff_getElem]
  refine ⟨hlt, by simp [hg, he], fun j hj => ?_⟩
  have hp := (List.pairwise_filterMap.mp h)
  have hq := List.pairwise_iff_getElem.mp hp j i (by omega) hlt hj
  cases hs : w.suspects[j] with
  | none => simp
  | some f =>
    have := hq f.block (by simp [hs]) p (by simp [hg, he])
    simpa using this

/-- The commit switches the translation as the statements say (R11, R85, R115). -/
theorem State.commitMove_switchedBy {s : State} {m : Move} (ht : m.target < s.table.length)
    (hs : m.source ≠ s.limit + m.target) (hb : s.watch.blocks.Nodup) : s.switchedBy (s.commitMove m) m := by
  have table : (s.commitMove m).table = commitTable s.limit s.table m := by
    unfold State.commitMove State.freeSuspect
    split <;> simp only [State.toIdle, State.setMig, State.hand]
  have watch : (s.commitMove m).watch =
      (State.freeSuspect { s with table := commitTable s.limit s.table m } m.source).watch := rfl
  have source : ∀ k, m.source = s.limit + k → k ≠ m.target → k < s.table.length →
      entryAt (commitTable s.limit s.table m) k = (entryAt s.table k).retire := by
    intro k hk hne hlt
    have h1 : ¬m.source < s.limit := by omega
    have h2 : m.source - s.limit = k := by omega
    simp only [commitTable, h1, if_false, h2]
    rw [entryAt_set_self (by simpa using hlt), entryAt_set_ne (Ne.symm hne)]
  have inTable : ∀ k, entryAt s.table k ≠ .free → k < s.table.length := fun k h =>
    Nat.lt_of_not_le fun hle => h (entryAt_of_ge hle)
  have notTarget : ∀ k, m.source = s.limit + k → k ≠ m.target := by
    rintro k hk rfl
    exact hs hk
  refine ⟨?_, ?_, ?_, ?_, ?_, ?_⟩
  · rw [table]
    unfold commitTable
    dsimp only
    split
    · exact entryAt_set_self ht _
    · rw [entryAt_set_ne (by omega), entryAt_set_self ht]
  · intro k l pending hk he
    rw [table, source k hk (notTarget k hk) (inTable k (by simp [he])), he]
    rfl
  · intro k l slot hk he
    rw [table, source k hk (notTarget k hk) (inTable k (by simp [he])), he]
    rfl
  · intro k hk hn
    rw [table]
    unfold commitTable
    dsimp only
    split
    · exact entryAt_set_ne (Ne.symm hk) _
    · rw [entryAt_set_ne (by omega), entryAt_set_ne (Ne.symm hk)]
  · intro h
    simp [watch, State.freeSuspect, suspectPos_none h]
  · intro i e hi he
    simp [watch, State.freeSuspect, suspectPos_of_nodup hb hi he]

/-- What the migration unit does with the removal of a request-path write is what the statements say (R53, R77, R84, R85). -/
theorem State.writeRemoved_removalTaken {v : State} {e : OutEntry} (h : e.isRequestWrite = true) :
    v.removalTaken (v.writeRemoved e) e := by
  unfold State.writeRemoved
  rw [if_pos h]
  refine ⟨?_, ?_, ?_⟩
  · intro hn
    split
    · rename_i m p hc
      rw [if_neg (hn.1 m p hc)]
    · rename_i m hc
      rw [if_neg (hn.2 m hc)]
    · rfl
  · intro m p hc hb hq
    simp only [hc, hb, hq, and_self, if_true, State.tryRead, ← v.writeToQuad_iff]
    refine ⟨fun hw => if_pos hw, fun hw => ?_⟩
    rw [if_neg hw]
    rfl
  · intro m hc hb
    simp only [hc, hb, if_true, State.tryCommit, ← v.writeToBlock_iff]
    refine ⟨fun hw => if_pos hw, fun hw => ?_⟩
    rw [if_neg hw]
    refine ⟨fun h1 h2 h3 h4 => State.commitMove_switchedBy (h1 ▸ h2) h3 h4, ?_, ?_, ?_⟩ <;>
      (unfold State.commitMove State.toIdle State.setMig State.hand State.freeSuspect; split <;> rfl)

/-- The entry a tag holds is the one the search for it finds, since no tag has two (R52). -/
theorem Arbiter.entry?_of_nodup {a : Arbiter} {tag : Tag} {e : OutEntry} (hn : (a.outstanding.map Prod.fst).Nodup)
    (hm : (tag, e) ∈ a.outstanding) : a.entry? tag = some e := by
  unfold Arbiter.entry?
  generalize a.outstanding = l at hn hm
  induction l with
  | nil => simp at hm
  | cons y l ih =>
    rw [List.map_cons, List.nodup_cons] at hn
    rw [List.find?_cons]
    rcases List.mem_cons.mp hm with h | h
    · subst h
      simp
    · have hy : y.1 ≠ tag := by
        rintro rfl
        exact hn.1 (List.mem_map.mpr ⟨_, h, rfl⟩)
      simp only [beq_eq_false_iff_ne.mpr hy]
      exact ih hn.2 h

/-- The response of a request-path write: its slot handles it with the entry gone, and the migration unit takes the removal
(R37, R53, R60). -/
theorem exec_writeResponse {tag : Tag} {status : BitVec 2} {beats : List ReadBeat} {first : Bool} {e : OutEntry} {k : Nat}
    {s v : State} (hp : s.pwrOk = true) (hl : s.arb.linkUp = true) (hn : (s.arb.outstanding.map Prod.fst).Nodup)
    (hm : (tag, e) ∈ s.arb.outstanding) (ho : e.owner = .request k) (hd : e.dir = .write)
    (hv : requestResponse k tag e (answerOf e status beats) (s.removeTag tag) = v) :
    ∃ u : State, exec (.downstreamResponse tag status beats first) s = .next u ∧ v.removalTaken u e := by
  subst hv
  refine ⟨_, ?_, State.writeRemoved_removalTaken (e.isRequestWrite_iff.mpr ⟨⟨k, ho⟩, hd⟩)⟩
  simp [exec, execDownstreamResponse, downstreamResponseEffect, powered, hp, hl, Arbiter.entry?_of_nodup hn hm,
    State.reportStatuses, hd, State.route, ho]

end Sys2Proof.Machine
end

