-- ==== Sys2Proof/Laws/Tags.lean ====
section
/-! SUPPORT. The tag the arbiter assigns is free (R52). -/

namespace Sys2Proof.Machine

/-- A tag the search finds is not held. -/
theorem not_held_of_freeTagFrom {out : List (Tag × OutEntry)} {n : Nat} {t t' : Tag}
    (h : freeTagFrom out n t = some t') : tagHeld out t' = false := by
  induction n generalizing t with
  | zero => simp [freeTagFrom] at h
  | succ n ih =>
    unfold freeTagFrom at h
    split at h
    · exact ih h
    · obtain rfl := Option.some.inj h
      exact Bool.eq_false_iff.mpr ‹_›

/-- A tag not held is the tag of no entry. -/
theorem tagHeld_eq_false {out : List (Tag × OutEntry)} {t : Tag} :
    tagHeld out t = false ↔ t ∉ out.map Prod.fst := by
  simp [tagHeld, List.any_eq_false]
  constructor
  · intro h e he
    exact h t e he rfl
  · rintro h a b hab rfl
    exact h b hab

/-- The tag assigned next is held by no entry (R52). -/
theorem nextFree_free {a : Arbiter} {t : Tag} (h : a.nextFree = some t) : t ∉ a.outstanding.map Prod.fst :=
  tagHeld_eq_false.mp (not_held_of_freeTagFrom h)

/-- Placing a request under the tag assigned next keeps the tags distinct (R52). -/
theorem place_nodup {a : Arbiter} {t : Tag} (e : OutEntry) (h : a.nextFree = some t)
    (hn : (a.outstanding.map Prod.fst).Nodup) : ((a.place t e).outstanding.map Prod.fst).Nodup := by
  simp only [Arbiter.place, List.map_append, List.map_cons, List.map_nil]
  refine List.Nodup.append hn (by simp) ?_
  simpa using nextFree_free h

/-- An entry found under a tag is in the table under that tag. -/
theorem mem_of_entry? {a : Arbiter} {t : Tag} {e : OutEntry} (h : a.entry? t = some e) : (t, e) ∈ a.outstanding := by
  unfold Arbiter.entry? at h
  obtain ⟨⟨t', e'⟩, hf, rfl⟩ := Option.map_eq_some_iff.mp h
  have h1 := List.find?_some hf
  have h2 := List.mem_of_find?_eq_some hf
  simp only [beq_iff_eq] at h1
  subst h1
  exact h2

end Sys2Proof.Machine
end

