-- ==== Sys2Proof/Laws/Watch.lean ====
section
/-! SUPPORT. What the decay timer and the taking of a status report do: ticks add up, a decay expiry is due exactly at the
period, the report of a response is the one its beats spell, and a report can be taken in two parts. -/

namespace Sys2Proof.Machine

/-! ### Decay expiries (R98, R113) -/

@[simp] theorem WatchUnit.decays_zero (w : WatchUnit) : w.decays 0 = w := rfl

@[simp] theorem WatchUnit.decays_succ (w : WatchUnit) (n : Nat) : w.decays (n + 1) = w.decay.decays n := rfl

/-- Decay expiries add up. -/
theorem WatchUnit.decays_add (w : WatchUnit) (m n : Nat) : w.decays (m + n) = (w.decays m).decays n := by
  induction m generalizing w with
  | zero => simp
  | succ m ih => rw [Nat.succ_add, decays_succ, ih, decays_succ]

/-- One more decay expiry is taken after the others. -/
theorem WatchUnit.decays_succ_last (w : WatchUnit) (n : Nat) : w.decays (n + 1) = (w.decays n).decay :=
  w.decays_add n 1

/-- A decay expiry neither reads nor writes the timer count. -/
@[simp] theorem WatchUnit.decay_decayCount (w : WatchUnit) : w.decay.decayCount = w.decayCount := rfl

@[simp] theorem WatchUnit.decay_decayDue (w : WatchUnit) : w.decay.decayDue = false := rfl

@[simp] theorem WatchUnit.decay_reports (w : WatchUnit) : w.decay.reports = w.reports := rfl

@[simp] theorem WatchUnit.decay_firings (w : WatchUnit) : w.decay.firings = w.firings := rfl

theorem WatchUnit.decay_set (w : WatchUnit) (c : Nat) (d : Bool) :
    WatchUnit.decay { w with decayCount := c, decayDue := d } = { w.decay with decayCount := c } := rfl

@[simp] theorem WatchUnit.takeDue_decayDue (w : WatchUnit) : w.takeDue.decayDue = false := by
  unfold WatchUnit.takeDue
  split
  · rfl
  · simpa using ‹¬w.decayDue = true›

/-- With no expiry due, taking one that is due changes nothing. -/
theorem WatchUnit.takeDue_of_not {w : WatchUnit} (h : w.decayDue = false) : w.takeDue = w := by simp [WatchUnit.takeDue, h]

@[simp] theorem WatchUnit.takeDue_takeDue (w : WatchUnit) : w.takeDue.takeDue = w.takeDue :=
  takeDue_of_not w.takeDue_decayDue

/-- A count set on the timer is carried through n decay expiries, at least one of which has been taken or none is due. -/
theorem WatchUnit.decays_set (w : WatchUnit) (c n : Nat) :
    WatchUnit.decays { w with decayCount := c, decayDue := false } n =
      { w.decays n with decayCount := c, decayDue := false } := by
  induction n generalizing w with
  | zero => rfl
  | succ n ih =>
    rw [decays_succ, decays_succ, decay_set]
    exact ih w.decay

/-! ### Ticks of the decay timer (R98) -/

@[simp] theorem WatchUnit.pass_zero (w : WatchUnit) (period : Nat) : w.pass period 0 = w := by simp [WatchUnit.pass]

/-- While DECAY_PERIOD is 0 the count is held at 0 and no expiry is due. -/
theorem WatchUnit.pass_stopped (w : WatchUnit) {d : Nat} (hd : d ≠ 0) :
    w.pass 0 d = { w with decayCount := 0, decayDue := false } := by
  simp [WatchUnit.pass, hd]

/-- Ticks that do not bring the count to the period only count, once the expiry that is due has been taken. -/
theorem WatchUnit.pass_below (w : WatchUnit) {period d : Nat} (hd : d ≠ 0) (h : w.decayCount + d < period) :
    w.pass period d = { w.takeDue with decayCount := w.decayCount + d, decayDue := false } := by
  have hp : period ≠ 0 := by omega
  simp [WatchUnit.pass, hd, hp, Nat.mod_eq_of_lt h, Nat.div_eq_of_lt h]

/-- The ticks that bring the count to the period return it to 0, with an expiry due. -/
theorem WatchUnit.pass_reaches (w : WatchUnit) {period d : Nat} (hd : d ≠ 0) (h : w.decayCount + d = period) :
    w.pass period d = { w.takeDue with decayCount := 0, decayDue := true } := by
  have hp : period ≠ 0 := by omega
  simp [WatchUnit.pass, hd, hp, h, Nat.div_self (Nat.pos_of_ne_zero hp)]

/-- What stands after some ticks, the expiry due taken: every expiry the count has reached. -/
theorem WatchUnit.takeDue_pass (w : WatchUnit) {period d : Nat} (hp : period ≠ 0) (hd : d ≠ 0) :
    (w.pass period d).takeDue =
      { w.takeDue.decays ((w.decayCount + d) / period) with
        decayCount := (w.decayCount + d) % period, decayDue := false } := by
  by_cases hr : (w.decayCount + d) % period = 0
  · have hq : 1 ≤ (w.decayCount + d) / period :=
      Nat.div_pos (Nat.le_of_dvd (by omega) (Nat.dvd_of_mod_eq_zero hr)) (by omega)
    obtain ⟨q, hq⟩ := Nat.exists_eq_add_of_le' hq
    simp only [WatchUnit.pass, hp, hd, if_false, hr, hq, beq_self_eq_true, if_true, Nat.add_sub_cancel,
      decays_succ_last]
    rfl
  · simp [WatchUnit.pass, hp, hd, hr, WatchUnit.takeDue]

/-- Ticks add up (R98). -/
theorem WatchUnit.pass_add (w : WatchUnit) (period a b : Nat) :
    w.pass period (a + b) = (w.pass period a).pass period b := by
  by_cases ha : a = 0
  · simp [ha]
  by_cases hb : b = 0
  · simp [hb]
  by_cases hp : period = 0
  · subst hp
    rw [pass_stopped _ hb, pass_stopped _ ha, pass_stopped _ (by omega)]
  have hc : (w.pass period a).decayCount = (w.decayCount + a) % period := by simp [WatchUnit.pass, ha, hp]
  have hdiv : (w.decayCount + (a + b)) / period =
      (w.decayCount + a) / period + ((w.decayCount + a) % period + b) / period := by
    have h := Nat.div_add_mod (w.decayCount + a) period
    rw [show w.decayCount + (a + b) = period * ((w.decayCount + a) / period) + ((w.decayCount + a) % period + b) by omega,
      Nat.mul_add_div (Nat.pos_of_ne_zero hp)]
  have hmod : (w.decayCount + (a + b)) % period = ((w.decayCount + a) % period + b) % period := by
    rw [← Nat.add_assoc, Nat.mod_add_mod]
  rw [show (w.pass period a).pass period b = _ from by rw [WatchUnit.pass, if_neg hb, if_neg hp]]
  simp only [hc, takeDue_pass w hp ha]
  rw [WatchUnit.pass, if_neg (show a + b ≠ 0 by omega), if_neg hp]
  simp only [hdiv, hmod]
  by_cases hr : ((w.decayCount + a) % period + b) % period = 0
  · have hq : 1 ≤ ((w.decayCount + a) % period + b) / period :=
      Nat.div_pos (Nat.le_of_dvd (by omega) (Nat.dvd_of_mod_eq_zero hr)) (by omega)
    simp only [hr, beq_self_eq_true, if_true, decays_set, Nat.add_sub_assoc hq, decays_add]
  · simp only [beq_eq_false_iff_ne.mpr hr, Bool.false_eq_true, if_false, decays_set, decays_add]

/-- Ticks of the programming timer add up: the one that brings it to 190 ends PROGRAMMING (R149, R163). -/
theorem Programmer.pass_add (p : Programmer) (a b : Nat) (h : p.inTime) : p.pass (a + b) = (p.pass a).pass b := by
  have hl : Config.programmingLimit = 190 := rfl
  cases p with
  | idle => rfl
  | programming slot record timer reported =>
    simp only [Programmer.pass]
    by_cases h1 : timer + a < Config.programmingLimit
    · simp only [h1, if_true, Nat.add_assoc]
    · rw [if_neg h1, if_neg (by omega)]
      simp only [Programmer.verifying.injEq, true_and]
      omega
  | verifying slot record timer =>
    simp only [Programmer.pass, Programmer.verifying.injEq, true_and]
    omega

/-- Microseconds of a running gap add up (R123). -/
theorem PatrolUnit.pass_add (p : PatrolUnit) (gap a b : Nat) : p.pass gap (a + b) = (p.pass gap a).pass gap b := by
  unfold PatrolUnit.pass
  cases h : p.state with
  | gap n =>
    simp only [PatrolUnit.mk.injEq, PatrolState.gap.injEq, and_true]
    omega
  | _ => simp only [h]

/-- The time comes to a microsecond, and then to a later one. -/
theorem State.advanceTo_advanceTo (s : State) {t u : Nat} (h : t ≤ u) : (s.advanceTo t).advanceTo u = s.advanceTo u := by
  have hd : u - s.clock.now = (t - s.clock.now) + (u - (s.clock.now + (t - s.clock.now))) := by omega
  simp only [State.advanceTo, State.passMicroseconds, State.params]
  rw [hd, PatrolUnit.pass_add]
  congr 2
  omega

/-- A tick after d ticks is tick d + 1: the clocks and the three timers go on (R97, R98, R149). -/
theorem State.passMilliseconds_succ (s : State) {d : Nat} (hd : d ≠ 0) (h : s.fuse.programmer.inTime) :
    s.passMilliseconds (d + 1) = (s.passMilliseconds d).passMilliseconds 1 := by
  have ht := s.advanceTo_advanceTo (t := s.clock.tickAt + 1000 * (d - 1)) (u := s.clock.tickAt + 1000 * d) (by omega)
  simp only [State.advanceTo, State.passMicroseconds, State.params, State.mk.injEq, Clock.mk.injEq] at ht
  simp only [State.passMilliseconds, State.advanceTo, State.passMicroseconds, State.params, State.decayPeriodMs, hd,
    if_false, Nat.add_sub_cancel, Nat.succ_ne_zero, WatchUnit.pass_add _ _ d 1, Programmer.pass_add _ d 1 h]
  simp only [true_and, and_true] at ht
  simp only [Nat.sub_self, Nat.mul_zero, Nat.add_zero, Nat.mul_one, ht.1, ht.2, Nat.mul_add, Nat.add_assoc,
    BitVec.ofNat_add, BitVec.add_assoc]

/-! ### The status report of a response (R61, R198) -/

/-- The lines of a response, when every side field is a status. -/
theorem readLines_eq (beats : List ReadBeat) :
    readLines beats =
      if ∀ b ∈ beats, b.side ≠ 3#2 then
        some (beats.map fun b =>
          { data := b.data
            status := if b.side = 0#2 then .ok else if b.side = 1#2 then .corrected else .uncorrectable })
      else none := by
  induction beats with
  | nil => rfl
  | cons b bs ih =>
    have h4 : b.side = 0#2 ∨ b.side = 1#2 ∨ b.side = 2#2 ∨ b.side = 3#2 := by
      generalize b.side = x; revert x; decide
    rw [readLines, ih]
    by_cases hbs : ∀ c ∈ bs, c.side ≠ 3#2
    · rw [if_pos hbs]
      rcases h4 with h | h | h | h
      · rw [if_pos (by simpa [h] using hbs)]
        simp [h, LineStatus.ofCode]
      · rw [if_pos (by simpa [h] using hbs)]
        simp [h, LineStatus.ofCode]
      · rw [if_pos (by simpa [h] using hbs)]
        simp [h, LineStatus.ofCode]
      · rw [if_neg fun hc => hc b List.mem_cons_self h]
        simp [h, LineStatus.ofCode]
    · rw [if_neg hbs, if_neg fun hc => hbs fun c hm => hc c (List.mem_cons_of_mem b hm)]
      cases LineStatus.ofCode b.side <;> rfl

/-- The report a READ response is given is the one its beats spell. -/
theorem reportOf_answerOf {e : OutEntry} (h : e.dir = .read) (status : BitVec 2) (beats : List ReadBeat) :
    reportOf e (answerOf e status beats) = responseReport e status beats := by
  simp only [answerOf, h, reportOf, responseReport, readLines_eq]
  by_cases h1 : status = 0#2 ∧ beats.length = e.size.lines
  · by_cases h2 : ∀ b ∈ beats, b.side ≠ 3#2
    · rw [if_pos h1, if_pos h2, if_pos ⟨h1.1, h1.2, h2⟩]
      simp only [List.zipIdx_map, List.map_map]
      congr 1
      refine List.map_congr_left fun y _ => ?_
      simp only [Function.comp, Prod.map]
      split <;> [skip; split] <;> simp_all [LineStatus.item]
    · rw [if_pos h1, if_neg h2, if_neg fun h => h2 h.2.2]
  · rw [if_neg h1, if_neg fun h => h1 ⟨h.1, h.2.1⟩]

/-! ### A status report in two parts (R101, R105, R112) -/

/-- Writing what stands there changes nothing. -/
theorem set_of_getElem? {α : Type} {l : List α} {i : Nat} {a : α} (h : l[i]? = some a) : l.set i a = l := by
  obtain ⟨hi, rfl⟩ := List.getElem?_eq_some_iff.mp h
  exact List.set_getElem_self hi

/-- What counting items at position i leaves of the suspect table and the clock: the entry there still names its block, and every
other position, the full-reported flag and the epoch are as before. -/
def State.countsAt (s u : State) (i p : Nat) : Prop :=
  u.clock = s.clock ∧ u.watch.fullReported = s.watch.fullReported ∧
    ∃ e : Suspect, e.block = p ∧ u.watch.suspects = s.watch.suspects.set i (some e)

theorem State.countsAt.trans {s u v : State} {i p : Nat} (h1 : s.countsAt u i p) (h2 : u.countsAt v i p) :
    s.countsAt v i p := by
  obtain ⟨c1, f1, e1, -, t1⟩ := h1
  obtain ⟨c2, f2, e2, b2, t2⟩ := h2
  exact ⟨c2.trans c1, f2.trans f1, e2, b2, by rw [t2, t1, List.set_set]⟩

theorem State.countsAt_setSuspect (s : State) (i : Nat) (e : Suspect) : s.countsAt (s.setSuspect i e) i e.block :=
  ⟨rfl, rfl, e, rfl, rfl⟩

theorem Suspect.setFired_block (e : Suspect) (c : LimitClass) : (e.setFired c).block = e.block := by cases c <;> rfl

theorem Suspect.afterLog_block (e : Suspect) (m : RearmMode) (c : LimitClass) : (e.afterLog m c).block = e.block := by
  cases m <;> cases c <;> rfl

theorem Suspect.countOne_block (e : Suspect) (now : Epoch) (c : LimitClass) : (e.countOne now c).block = e.block := by
  cases c <;> rfl

/-- An enqueue leaves the error watch unit and the clock alone. -/
theorem State.enqueue_watch (s : State) (l p : Nat) :
    (s.enqueue l p).2.watch = s.watch ∧ (s.enqueue l p).2.clock = s.clock := by
  unfold State.enqueue
  split
  · exact ⟨rfl, rfl⟩
  · split <;> exact ⟨rfl, rfl⟩

/-- An entry written at position i over a state with the same clock and the same error watch unit. -/
theorem State.countsAt_of {s u v : State} {i : Nat} (e : Suspect) (hw : v.watch = s.watch) (hc : v.clock = s.clock)
    (uw : u.watch = (v.setSuspect i e).watch) (uc : u.clock = v.clock) : s.countsAt u i e.block := by
  refine ⟨uc.trans hc, ?_, e, rfl, ?_⟩
  · rw [uw, State.setSuspect, hw]
  · rw [uw, State.setSuspect, hw]

theorem State.fireEnqueue_countsAt (s : State) (c : LimitClass) (i l : Nat) (e : Suspect) :
    s.countsAt (s.fireEnqueue c i l e) i e.block := by
  obtain ⟨hw, hc⟩ := s.enqueue_watch l e.block
  simp only [State.fireEnqueue]
  split
  · exact State.countsAt_of { e with denied := true } hw hc rfl rfl
  · exact State.countsAt_of e hw hc rfl rfl

theorem State.fireFreeSpare_countsAt (s : State) (i k n : Nat) (e : Suspect)
    (h : s.watch.suspects[i]? = some (some e)) : s.countsAt (s.fireFreeSpare i k n e) i e.block := by
  have same : ∀ u : State, u.watch = s.watch → u.clock = s.clock → s.countsAt u i e.block := fun u hw hc =>
    ⟨hc, by rw [hw], e, rfl, by rw [hw, set_of_getElem? h]⟩
  unfold State.fireFreeSpare State.retireIfFree
  cases he : entryAt s.table k with
  | free => exact same _ rfl rfl
  | reserved l => exact same _ rfl rfl
  | soft l p =>
    obtain ⟨hw, hc⟩ := s.enqueue_watch l e.block
    simp only
    split
    · exact State.countsAt_of { e with denied := true } rfl rfl rfl rfl
    · exact same _ hw hc
  | hard l p =>
    obtain ⟨hw, hc⟩ := s.enqueue_watch l e.block
    simp only
    split
    · exact State.countsAt_of { e with denied := true } rfl rfl rfl rfl
    · exact same _ hw hc
  | retired l k b p => exact same _ rfl rfl

theorem State.fireRetire_countsAt (s : State) (bc : BlockClass) (c : LimitClass) (i : Nat) (e : Suspect)
    (h : i < s.watch.suspects.length) : s.countsAt (s.fireRetire bc c i e) i e.block := by
  have hb : (e.setFired c).block = e.block := e.setFired_block c
  rw [← hb]
  unfold State.fireRetire
  cases bc with
  | homeInUse l => exact s.fireEnqueue_countsAt c i l (e.setFired c)
  | servingSpare k l => exact s.fireEnqueue_countsAt c i l (e.setFired c)
  | freeSpare k =>
    have h1 : s.countsAt ((s.setSuspect i (e.setFired c)).handFiring c e) i (e.setFired c).block :=
      ⟨rfl, rfl, e.setFired c, rfl, rfl⟩
    refine h1.trans (State.fireFreeSpare_countsAt _ i k _ _ ?_)
    show (s.watch.suspects.set i (some (e.setFired c)))[i]? = _
    simp [h]
  | migrationTarget k => exact ⟨rfl, rfl, e.setFired c, rfl, rfl⟩
  | homeRemapped => exact ⟨rfl, rfl, e.setFired c, rfl, rfl⟩
  | retiredSpare k => exact ⟨rfl, rfl, e.setFired c, rfl, rfl⟩

theorem State.fire_countsAt (s : State) (bc : BlockClass) (c : LimitClass) (i : Nat) (e : Suspect)
    (h : i < s.watch.suspects.length) : s.countsAt (s.fire bc c i e) i e.block := by
  unfold State.fire
  cases s.params.action c with
  | none => exact s.countsAt_setSuspect i e
  | log => exact ⟨rfl, rfl, _, e.afterLog_block s.params.rearmMode c, rfl⟩
  | alert => exact ⟨rfl, rfl, _, e.afterLog_block s.params.rearmMode c, rfl⟩
  | retire => exact s.fireRetire_countsAt bc c i e h

/-- Counting one item into the entry of block p at position i. -/
theorem State.countItem_countsAt {s : State} {i : Nat} {e : Suspect} (bc : BlockClass) (st : ItemStatus)
    (h : s.watch.suspects[i]? = some (some e)) : s.countsAt (s.countItem bc i st) i e.block := by
  have hs : s.suspect? i = some e := by simp [State.suspect?, List.getD, h]
  have hi : i < s.watch.suspects.length := (List.getElem?_eq_some_iff.mp h).1
  unfold State.countItem
  rw [hs]
  cases st.limitClass with
  | none => exact ⟨rfl, rfl, e, rfl, (set_of_getElem? h).symm⟩
  | some c =>
    rw [← e.countOne_block s.clock.epoch c]
    simp only
    split
    · exact s.fire_countsAt bc c i _ hi
    · exact s.countsAt_setSuspect i _

/-- Counting items one after the other into the entry of block p at position i. -/
theorem State.countItems_countsAt (bc : BlockClass) (i : Nat) (items : List (Nat × ItemStatus)) :
    ∀ (s : State) (e : Suspect), s.watch.suspects[i]? = some (some e) →
      s.countsAt (items.foldl (fun s x => s.countItem bc i x.2) s) i e.block := by
  induction items with
  | nil => exact fun s e h => ⟨rfl, rfl, e, rfl, (set_of_getElem? h).symm⟩
  | cons x xs ih =>
    intro s e h
    have h1 := State.countItem_countsAt bc x.2 h
    obtain ⟨c1, f1, e1, b1, t1⟩ := h1
    have hi : i < s.watch.suspects.length := (List.getElem?_eq_some_iff.mp h).1
    have h2 := ih (s.countItem bc i x.2) e1 (by rw [t1]; simp [hi])
    rw [b1] at h2
    exact State.countsAt.trans ⟨c1, f1, e1, b1, t1⟩ h2

/-- An OK item counts nothing. -/
theorem State.countItem_ok (s : State) (bc : BlockClass) (i : Nat) : s.countItem bc i .ok = s := rfl

theorem State.countItems_allOk (s : State) (bc : BlockClass) (i : Nat) (items : List (Nat × ItemStatus))
    (h : (items.all fun x => x.2 == .ok) = true) : items.foldl (fun s x => s.countItem bc i x.2) s = s := by
  induction items with
  | nil => rfl
  | cons x xs ih =>
    simp only [List.all_cons, Bool.and_eq_true, beq_iff_eq] at h
    rw [List.foldl_cons, h.1, State.countItem_ok]
    exact ih h.2

/-! ### Items that fire no retirement (R105 to R108) -/

/-- The class an item counts in has one more item with it, and the other class as many as without it. -/
theorem itemsOf_cons (c : LimitClass) (x : Nat × ItemStatus) (b : List (Nat × ItemStatus)) :
    itemsOf c (x :: b) = itemsOf c b + if x.2.limitClass = some c then 1 else 0 := by
  obtain ⟨l, st⟩ := x
  cases c <;> cases st <;> simp [itemsOf, ItemStatus.limitClass]

/-- No RETIRE firing of class c comes of these items: it has none, has fired, stays below its limit, or has another action. -/
def Suspect.noRetire (e : Suspect) (ps : Params) (c : LimitClass) (items : List (Nat × ItemStatus)) : Prop :=
  itemsOf c items = 0 ∨ e.fired c = true ∨ e.count c + itemsOf c items < ps.limit c ∨ ps.action c ≠ .retire

/-- The count and the flag of one class are all that the class's own items change. -/
theorem Suspect.noRetire_of_same {e f : Suspect} {ps : Params} {c : LimitClass} {items : List (Nat × ItemStatus)}
    (h : e.noRetire ps c items) (hf : f.fired c = e.fired c) (hc : f.count c = e.count c) : f.noRetire ps c items := by
  unfold Suspect.noRetire at *
  rwa [hf, hc]

theorem Suspect.countOne_fired (e : Suspect) (now : Epoch) (c d : LimitClass) : (e.countOne now c).fired d = e.fired d := by
  cases c <;> cases d <;> rfl

theorem Suspect.countOne_count (e : Suspect) (now : Epoch) (c d : LimitClass) :
    (e.countOne now c).count d = if c = d then min 255 (e.count d + 1) else e.count d := by
  cases c <;> cases d <;> rfl

theorem Suspect.afterLog_other (e : Suspect) (m : RearmMode) {c d : LimitClass} (h : c ≠ d) :
    (e.afterLog m c).fired d = e.fired d ∧ (e.afterLog m c).count d = e.count d := by
  cases c <;> cases d <;> cases m <;> first | exact absurd rfl h | exact ⟨rfl, rfl⟩

/-- Counting items of which none fires with RETIRE neither reads nor writes the remap table (R105 to R107). -/
theorem State.countItems_setTable (bc : BlockClass) (i : Nat) (t : List Entry) (b : List (Nat × ItemStatus)) :
    ∀ (s : State) (e : Suspect), s.watch.suspects[i]? = some (some e) → (∀ c, e.noRetire s.params c b) →
      b.foldl (fun s x => s.countItem bc i x.2) { s with table := t } =
        { b.foldl (fun s x => s.countItem bc i x.2) s with table := t } := by
  induction b with
  | nil => exact fun s e _ _ => rfl
  | cons x b ih =>
    intro s e he h
    have hi := (List.getElem?_eq_some_iff.mp he).1
    have hs : s.suspect? i = some e := by simp [State.suspect?, List.getD, he]
    suffices step : ∃ (u : State) (f : Suspect), s.countItem bc i x.2 = u ∧
        State.countItem { s with table := t } bc i x.2 = { u with table := t } ∧
        u.watch.suspects[i]? = some (some f) ∧ u.params = s.params ∧ ∀ c, f.noRetire s.params c b by
      obtain ⟨u, f, h1, h2, h3, h4, h5⟩ := step
      rw [List.foldl_cons, List.foldl_cons, h1, h2]
      exact ih u f h3 (h4 ▸ h5)
    have keep : ∀ c, x.2.limitClass ≠ some c → e.noRetire s.params c b := fun c hc => by
      have := h c
      unfold Suspect.noRetire at *
      rwa [itemsOf_cons, if_neg hc, Nat.add_zero] at this
    unfold State.countItem
    rw [hs, show State.suspect? { s with table := t } i = some e from hs]
    cases hc : x.2.limitClass with
    | none => exact ⟨s, e, rfl, rfl, he, rfl, fun c => keep c (by simp [hc])⟩
    | some c =>
      have other : ∀ (f : Suspect) d, c ≠ d → f.fired d = e.fired d → f.count d = e.count d →
          f.noRetire s.params d b := fun f d hd =>
        Suspect.noRetire_of_same (keep d (by simp [hc, hd]))
      have hn := h c
      unfold Suspect.noRetire at hn
      rw [itemsOf_cons, if_pos hc] at hn
      simp only [show State.params { s with table := t } = s.params from rfl]
      by_cases hf : (e.countOne s.clock.epoch c).fires s.params c = true
      · rw [if_pos hf, if_pos hf]
        have ha : s.params.action c ≠ .retire := by
          unfold Suspect.fires at hf
          rw [Suspect.countOne_fired, Suspect.countOne_count, if_pos rfl] at hf
          simp only [Bool.and_eq_true, decide_eq_true_eq, Bool.not_eq_true'] at hf
          rcases hn with h0 | h0 | h0 | h0
          · omega
          · rw [h0] at hf; exact absurd hf.2 (by simp)
          · omega
          · exact h0
        have own : ∀ f : Suspect, f.noRetire s.params c b := fun f => .inr (.inr (.inr ha))
        have all : ∀ f : Suspect, (∀ d, c ≠ d → f.fired d = e.fired d ∧ f.count d = e.count d) →
            ∀ d, f.noRetire s.params d b := fun f hd d => by
          by_cases hcd : c = d
          · exact hcd ▸ own f
          · exact other f d hcd (hd d hcd).1 (hd d hcd).2
        have one : ∀ d, c ≠ d → (e.countOne s.clock.epoch c).fired d = e.fired d ∧
            (e.countOne s.clock.epoch c).count d = e.count d := fun d hd =>
          ⟨Suspect.countOne_fired .., by rw [Suspect.countOne_count, if_neg hd]⟩
        have log : ∀ m d, c ≠ d → ((e.countOne s.clock.epoch c).afterLog m c).fired d = e.fired d ∧
            ((e.countOne s.clock.epoch c).afterLog m c).count d = e.count d := fun m d hd => by
          obtain ⟨h1, h2⟩ := Suspect.afterLog_other (e.countOne s.clock.epoch c) m hd
          rw [h1, h2]
          exact one d hd
        unfold State.fire
        rw [show State.params { s with table := t } = s.params from rfl]
        cases hac : s.params.action c with
        | none => exact ⟨_, _, rfl, rfl, by simp [State.setSuspect, hi], rfl, all _ one⟩
        | log =>
          exact ⟨_, (e.countOne s.clock.epoch c).afterLog s.params.rearmMode c, rfl, rfl,
            by simp [State.setSuspect, State.hand, hi], rfl, all _ (log _)⟩
        | alert =>
          exact ⟨_, (e.countOne s.clock.epoch c).afterLog s.params.rearmMode c, rfl, rfl,
            by simp [State.setSuspect, State.hand, hi], rfl, all _ (log _)⟩
        | retire => exact absurd hac ha
      · rw [if_neg hf, if_neg hf]
        refine ⟨_, e.countOne s.clock.epoch c, rfl, rfl, by simp [State.setSuspect, hi], rfl, fun d => ?_⟩
        by_cases hcd : c = d
        · subst hcd
          unfold Suspect.noRetire
          rw [Suspect.countOne_fired, Suspect.countOne_count, if_pos rfl]
          rcases hn with h0 | h0 | h0 | h0
          · omega
          · exact .inr (.inl h0)
          · exact .inr (.inr (.inl (by omega)))
          · exact .inr (.inr (.inr h0))
        · exact other _ d hcd (Suspect.countOne_fired ..) (by rw [Suspect.countOne_count, if_neg hcd])

/-! ### The place of a report's entry (R102, R103) -/

/-- The victim lies in the table. -/
theorem victimFrom_lt {now : Epoch} {t : List (Option Suspect)} :
    ∀ {j i : Nat} {e : Suspect}, victimFrom now j t = some (i, e) → i < j + t.length := by
  induction t with
  | nil => intro j i e h; simp [victimFrom] at h
  | cons x xs ih =>
    intro j i e h
    have later : ∀ {k f}, victimFrom now (j + 1) xs = some (k, f) → k < j + (xs.length + 1) := fun hk => by
      have := ih hk; omega
    unfold victimFrom at h
    split at h
    · rename_i k f hv
      split at h
      · split at h
        · cases h; exact later hv
        · cases h; simp
      · cases h; exact later hv
    · split at h
      · cases h; simp
      · simp at h
    · exact later h

/-- A report's entry stands in the table. -/
theorem suspectPlace_lt {now : Epoch} {t : List (Option Suspect)} {p i : Nat} (h : suspectPlace now t p = some i) :
    i < t.length := by
  unfold suspectPlace at h
  split at h
  · rename_i j hj
    cases h
    exact (List.findIdx?_eq_some_iff_getElem.mp hj).1
  · split at h
    · rename_i j hj
      cases h
      exact (List.findIdx?_eq_some_iff_getElem.mp hj).1
    · obtain ⟨⟨k, e⟩, hv, rfl⟩ := Option.map_eq_some_iff.mp h
      simpa using victimFrom_lt hv

/-- The entry made for block p, wherever it was made, is found again. -/
theorem suspectPlace_set {now : Epoch} {t : List (Option Suspect)} {p i : Nat} {e : Suspect}
    (h : suspectPlace now t p = some i) (he : e.block = p) : suspectPlace now (t.set i (some e)) p = some i := by
  have hi := suspectPlace_lt h
  suffices hp : suspectPos (t.set i (some e)) p = some i by simp [suspectPlace, hp]
  refine List.findIdx?_eq_some_iff_getElem.mpr ⟨by simpa using hi, by simp [he], fun j hj => ?_⟩
  have hjt : j < t.length := by omega
  rw [List.getElem_set_ne (by omega)]
  unfold suspectPlace at h
  split at h
  · rename_i k hk
    cases h
    exact (List.findIdx?_eq_some_iff_getElem.mp hk).2.2 j hj
  · rename_i hn
    simpa using List.findIdx?_eq_none_iff.mp hn _ (List.getElem_mem hjt)

/-- A report of OK items only changes nothing (R100). -/
theorem State.takeReport_allOk {s : State} {r : StatusReport} (h : (r.items.all fun x => x.2 == .ok) = true) :
    s.takeReport r = s := by
  rw [State.takeReport, if_pos h]

/-- A report for a block that is not counted changes nothing (R101). -/
theorem State.takeReport_uncounted {s : State} {r : StatusReport} (h : (s.classify r.block).counted = false) :
    s.takeReport r = s := by
  unfold State.takeReport
  split
  · rfl
  · simp only [h, if_true]

/-- A report that finds no place, the full-reported flag being set, changes nothing (R104). -/
theorem State.takeReport_refused {s : State} {r : StatusReport}
    (hp : suspectPlace s.clock.epoch s.watch.suspects r.block = none) (hf : s.watch.fullReported = true) :
    s.takeReport r = s := by
  rw [State.takeReport, hp]
  simp only [if_pos hf, ite_self]

/-- The first report that finds no place writes SUSPECT_FULL and sets the full-reported flag (R104). -/
theorem State.takeReport_full {s : State} {r : StatusReport} (h : (r.items.all fun x => x.2 == .ok) = false)
    (hc : (s.classify r.block).counted = true) (hp : suspectPlace s.clock.epoch s.watch.suspects r.block = none)
    (hf : s.watch.fullReported = false) :
    s.takeReport r =
      State.hand { s with watch := { s.watch with fullReported := true } } .watch (.suspectFull r.block) := by
  simp only [State.takeReport, h, hc, hp, hf, Bool.false_eq_true, Bool.true_eq_false, if_false]

/-- A counted report with a place counts its items in order, by the class of its block when it is taken (R101, R102, R105). -/
theorem State.takeReport_counted {s : State} {r : StatusReport} {i : Nat}
    (h : (r.items.all fun x => x.2 == .ok) = false) (hc : (s.classify r.block).counted = true)
    (hp : suspectPlace s.clock.epoch s.watch.suspects r.block = some i) :
    s.takeReport r =
      r.items.foldl (fun u x => u.countItem (s.classify r.block) i x.2)
        (s.setSuspect i (suspectFor s.clock.epoch s.watch.suspects r.block i)) := by
  simp only [State.takeReport, h, hc, hp, Bool.false_eq_true, Bool.true_eq_false, if_false]

/-- The entry a report is counted into names its block. -/
theorem suspectFor_block (now : Epoch) (t : List (Option Suspect)) (p i : Nat) : (suspectFor now t p i).block = p := by
  unfold suspectFor
  split
  · split
    · assumption
    · rfl
  · rfl

/-- A status report can be taken in two parts, one after the other, while the class of its block stands (R101, R105, R112). -/
theorem State.takeReport_append (s : State) {r : StatusReport} {a b : List (Nat × ItemStatus)} (hi : r.items = a ++ b)
    (hc : (s.takeReport { r with items := a }).classify r.block = s.classify r.block) :
    s.takeReport r = (s.takeReport { r with items := a }).takeReport { r with items := b } := by
  by_cases ha : (a.all fun x => x.2 == .ok) = true
  · rw [State.takeReport_allOk (s := s) (r := { r with items := a }) ha]
    by_cases hb : (b.all fun x => x.2 == .ok) = true
    · rw [State.takeReport_allOk (r := { r with items := b }) hb,
        State.takeReport_allOk (by rw [hi, List.all_append, ha, hb, Bool.true_and])]
    · simp only [State.takeReport, hi, List.all_append, ha, Bool.true_and, List.foldl_append,
        State.countItems_allOk _ _ _ a ha]
  rw [Bool.not_eq_true] at ha
  have hab : (r.items.all fun x => x.2 == .ok) = false := by rw [hi, List.all_append, ha, Bool.false_and]
  cases hn : (s.classify r.block).counted with
  | false =>
    rw [State.takeReport_uncounted hn, State.takeReport_uncounted (r := { r with items := a }) hn,
      State.takeReport_uncounted (r := { r with items := b }) hn]
  | true =>
    cases hp : suspectPlace s.clock.epoch s.watch.suspects r.block with
    | none =>
      cases hf : s.watch.fullReported with
      | true =>
        rw [State.takeReport_refused hp hf, State.takeReport_refused (r := { r with items := a }) hp hf,
          State.takeReport_refused (r := { r with items := b }) hp hf]
      | false =>
        rw [State.takeReport_full hab hn hp hf, State.takeReport_full (r := { r with items := a }) ha hn hp hf]
        exact (State.takeReport_refused (r := { r with items := b })
          (s := State.hand { s with watch := { s.watch with fullReported := true } } .watch (.suspectFull r.block)) hp rfl).symm
    | some i =>
      rw [State.takeReport_counted hab hn hp, hi, List.foldl_append]
      have h1 := State.takeReport_counted (r := { r with items := a }) ha hn hp
      have hlt := suspectPlace_lt hp
      have hc1 : s.countsAt (s.takeReport { r with items := a }) i r.block := by
        have h0 := State.countsAt_setSuspect s i (suspectFor s.clock.epoch s.watch.suspects r.block i)
        rw [suspectFor_block] at h0
        have h2 := State.countItems_countsAt (s.classify r.block) i a
          (s.setSuspect i (suspectFor s.clock.epoch s.watch.suspects r.block i))
          (suspectFor s.clock.epoch s.watch.suspects r.block i) (by simp [State.setSuspect, hlt])
        rw [suspectFor_block] at h2
        rw [h1]
        exact h0.trans h2
      rw [← h1]
      revert hc hc1
      generalize s.takeReport { r with items := a } = u
      intro hc ⟨c1, _, e, be, te⟩
      have hg : u.watch.suspects[i]? = some (some e) := by rw [te]; simp [hlt]
      by_cases hb : (b.all fun x => x.2 == .ok) = true
      · rw [State.takeReport_allOk (r := { r with items := b }) hb, State.countItems_allOk _ _ _ b hb]
      · rw [Bool.not_eq_true] at hb
        have hp2 : suspectPlace u.clock.epoch u.watch.suspects r.block = some i := by
          rw [c1, te]
          exact suspectPlace_set hp be
        rw [State.takeReport_counted (r := { r with items := b }) hb (by rw [hc]; exact hn) hp2]
        have he : suspectFor u.clock.epoch u.watch.suspects r.block i = e := by
          simp [suspectFor, List.getD, hg, be]
        have hs : u.setSuspect i e = u := by rw [State.setSuspect, set_of_getElem? hg]
        simp only [he, hs, hc]

/-- A status report whose first items change the class of its block by changing the remap table: the later items count by the
class taken for the report, so as they would with the table as it was, where none of them fires with RETIRE (R101, R105). -/
theorem State.takeReport_append_table (s : State) {r : StatusReport} {a b : List (Nat × ItemStatus)} {i : Nat}
    (hi : r.items = a ++ b) (ha : (a.all fun x => x.2 == .ok) = false) (hn : (s.classify r.block).counted = true)
    (hp : suspectPlace s.clock.epoch s.watch.suspects r.block = some i)
    (hc : State.classify { s.takeReport { r with items := a } with table := s.table } r.block = s.classify r.block)
    (hb : ∀ e, (s.takeReport { r with items := a }).watch.suspects[i]? = some (some e) →
      ∀ c, e.noRetire (s.takeReport { r with items := a }).params c b) :
    s.takeReport r =
      { State.takeReport { s.takeReport { r with items := a } with table := s.table } { r with items := b } with
        table := (s.takeReport { r with items := a }).table } := by
  have hab : (r.items.all fun x => x.2 == .ok) = false := by rw [hi, List.all_append, ha, Bool.false_and]
  have hlt := suspectPlace_lt hp
  have h1 := State.takeReport_counted (r := { r with items := a }) ha hn hp
  have hc1 : s.countsAt (s.takeReport { r with items := a }) i r.block := by
    have h0 := State.countsAt_setSuspect s i (suspectFor s.clock.epoch s.watch.suspects r.block i)
    rw [suspectFor_block] at h0
    have h2 := State.countItems_countsAt (s.classify r.block) i a
      (s.setSuspect i (suspectFor s.clock.epoch s.watch.suspects r.block i))
      (suspectFor s.clock.epoch s.watch.suspects r.block i) (by simp [State.setSuspect, hlt])
    rw [suspectFor_block] at h2
    rw [h1]
    exact h0.trans h2
  rw [State.takeReport_counted hab hn hp, hi, List.foldl_append]
  rw [← h1]
  revert hc hc1 hb
  generalize s.takeReport { r with items := a } = u
  intro hc hb ⟨c1, _, e, be, te⟩
  have hg : u.watch.suspects[i]? = some (some e) := by rw [te]; simp [hlt]
  have hv := State.countItems_setTable (s.classify r.block) i u.table b { u with table := s.table } e hg (hb e hg)
  by_cases hbo : (b.all fun x => x.2 == .ok) = true
  · rw [State.takeReport_allOk (r := { r with items := b }) hbo, State.countItems_allOk _ _ _ b hbo]
  · rw [Bool.not_eq_true] at hbo
    have hp2 : suspectPlace u.clock.epoch u.watch.suspects r.block = some i := by
      rw [c1, te]
      exact suspectPlace_set hp be
    rw [State.takeReport_counted (s := { u with table := s.table }) (r := { r with items := b }) hbo (by rw [hc]; exact hn) hp2]
    have he : suspectFor u.clock.epoch u.watch.suspects r.block i = e := by
      simp [suspectFor, List.getD, hg, be]
    have hs : State.setSuspect { u with table := s.table } i e = { u with table := s.table } := by
      rw [State.setSuspect, set_of_getElem? hg]
    simp only [he, hs, hc]
    exact hv

end Sys2Proof.Machine
end

