-- ==== Sys2Proof/Tests/Slice0.lean ====
section
/-! SUPPORT. The model's own tests: worked examples of the spec, the well-formedness smoke, each command on a small state, and for
every statement with hypotheses a state and operands that meet them. -/

open Sys2Proof Sys2Proof.Machine

namespace Sys2Proof.Tests

-- Each test waits for the kernel: one at a time, so that the waiting ones do not hold a thread each.
set_option Elab.async false

/-! ### Small states -/

/-- The state a command answers, and the reset state where it answers none. -/
def after (o : Host.Outcome State Fault Refusal) : State :=
  match o with
  | .next u => u
  | _ => State.reset

/-- The outcome is the next state t. -/
def answers (o : Host.Outcome State Fault Refusal) (t : State) : Bool :=
  match o with
  | .next u => decide (u = t)
  | _ => false

/-- A READY part of 2 GiB with nothing in flight, 8 downstream credits, 64 upstream credits, five seconds after power-on. -/
def quiet : State :=
  { State.reset with
    clock := { epoch := 5000#32, now := 5000000, tickAt := 5001000 }
    fuse :=
      { part := .ready, capacity := some .gib2
        images := List.replicate 32 (some { bits := 0#40, kind := .blank, applied := none }), appendPtr := some 0
        programmer := .idle }
    arb := { credits := 8, outstanding := [], nextTag := 0#8, bgWait := 0, linkUp := true }
    req := { State.reset.req with credits := 64 } }

/-- The MALFORMED_FRAME of these MSI levels, in order. -/
def ofLevels (msi : List Bool) : Instr := .malformedFrame msi.length (BitVec.ofBoolListBE msi)

/-- The quiet part with entry k of the remap table replaced. -/
def withEntry (k : Nat) (e : Entry) : State := { quiet with table := quiet.table.set k e }

/-- A request of a tracker slot for line 0 of quad 2 of logical block 5,000. -/
def ask (kind : Access) : Slot where
  state := .queued
  tag := 9#8
  kind := kind
  addr := 81920512#34
  size := .one
  payload := if kind = .write then some [{ data := 7#512, poison := false }] else none
  deadline := 5002000
  answered := false
  first := none
  second := none
  merged := none

/-- The state with tracker slot 0 in use and, when it is QUEUED, at the head of the relay queue. -/
def withSlot (s : State) (x : Slot) : State :=
  { s with
    req :=
      { s.req with
        credits := 63, slots := s.req.slots.set 0 (some x), relay := if x.state = .queued then [0] else [] } }

/-- A migration of logical block 5,000 from its home block to spare 3. -/
def move : Move where
  req := { l := 5000, origin := .auto 5000, retry := 0, enqueued := 4000#32 }
  source := 5000
  target := 3

/-- The quiet part copying, with P and the lock given. -/
def copying (p : Nat) (lock : Option Lock) : State :=
  { withEntry 3 (.reserved 5000) with mig := { quiet.mig with context := .copying move p lock } }

/-- The state with one entry in the outstanding downstream table under tag 4. -/
def inFlight (s : State) (e : OutEntry) : State := { s with arb := { s.arb with outstanding := [(4#8, e)] } }

/-- The entry of a request-path access of slot 0 to quad 2 of block p. -/
def entryTo (p : Nat) (dir : Access) : OutEntry :=
  { owner := .request 0, block := p, quad := 2, firstLine := 0, size := .one, dir := dir }

/-- The state with a suspect entry at position 0. -/
def suspecting (s : State) (e : Suspect) : State :=
  { s with watch := { s.watch with suspects := s.watch.suspects.set 0 (some e) } }

/-- A suspect entry for block p with these counts. -/
def suspect (p ce ue : Nat) : Suspect :=
  { block := p, ce := ce, ue := ue, first := 1000#32, last := 2000#32, ceFired := false, ueFired := false, denied := false }

/-- The state with one status report waiting, of one line of block p. -/
def reporting (s : State) (p : Nat) (st : ItemStatus) : State :=
  { s with watch := { s.watch with reports := [{ block := p, quad := 2, items := [(1, st)] }] } }

/-- A stored record. -/
def stored (seq : Nat) (alert : Bool) : FaultRecord :=
  { seq := BitVec.ofNat 16 seq, epoch := 4000#32, alert := alert, missed := 0, body := .lateResponse 7310 }

/-- The record unit's state with these records held. -/
def holding (q : List FaultRecord) (next : Nat) : State :=
  { quiet with
    recs := { quiet.recs with queue := q, nextSeq := BitVec.ofNat 16 next, alertLow := q.any fun r => r.alert } }

/-! ### Worked examples of the spec -/

/-- The worked address of 1.2: two lines at 81,924,480, block 5,000 on spare 3 of 4 GiB. -/
theorem test_address :
    blockOf 81924480#34 = 5000 ∧ quadOf 81924480#34 = 17 ∧ lineOf 81924480#34 = 2 ∧
      translate 262016 ((List.replicate 128 Entry.free).set 3 (.soft 5000 false)) 5000 = 262019 ∧
      physAddr 262019 (offsetOf 81924480#34) = 4292923776#34 := by
  decide +kernel

/-- The CRC-8 values of R175 and R199. -/
theorem test_crc :
    crc8 [0x01#8] = 0x07#8 ∧ crc8 [0x01#8, 0x00#8] = 0x15#8 ∧ crc8 [0x01#8, 0x00#8, 0x15#8] = 0x00#8 ∧
      crc8 [0xC0#8] = 0x4E#8 ∧ crc8 [0xC0#8, 0#8] = 0xED#8 ∧ crc8 [0xC0#8, 0#8, 0#8] = 0x8D#8 ∧
      crc8 [0xC0#8, 0#8, 0#8, 0#8] = 0xAA#8 := by decide +kernel

/-- GET_STATUS is sent as 01 00 15 and RESULT_READ as 02 00 2A (11.3). -/
theorem test_frames :
    frameBytes 0x01#8 [] = [0x01#8, 0x00#8, 0x15#8] ∧ frameBytes 0x02#8 [] = [0x02#8, 0x00#8, 0x2A#8] ∧
      frameOf [0x01#8, 0x00#8, 0x15#8] false = .command 0x01#8 [] ∧
      frameOf [0x02#8, 0x00#8, 0x2A#8, 0x00#8] true = .readFrame ∧
      frameOf [0x20#8, 0x03#8, 0x00#8, 0x13#8, 0x88#8] false = .malformed .short ∧
      frameOf [0x02#8, 0x00#8] false = .malformed .short ∧ frameOf [] false = .malformed .short ∧
      frameOf [0x20#8, 0x0D#8] true = .malformed .length ∧
      frameOf [0x01#8, 0x00#8, 0x16#8] false = .malformed .check ∧
      frameOf [0x01#8, 0x00#8, 0x15#8] true = .malformed .long ∧
      frameOf [0x01#8, 0x00#8, 0x15#8, 0xFF#8] false = .malformed .check ∧
      frameOf [0x01#8, 0x00#8, 0x15#8, 0x00#8] false = .malformed .long := by decide +kernel

/-- BAN(0) is C0 00 00 00 AA; with its marker not programmed it is SPOILED with TORN (R199). -/
theorem test_banZero :
    (FuseRecord.ban 0).word = 0xC0000000AA#40 ∧ fuseBytes (FuseRecord.ban 0).word = [0xC0#8, 0#8, 0#8, 0#8, 0xAA#8] ∧
      classifySlot 0xC0000000AA#40 = .valid ∧ classifySlot 0x40000000AA#40 = .spoiled (.load .torn) := by decide +kernel

/-- The record as read of 11.4. -/
theorem test_recordBytes :
    FaultRecord.bytes { seq := 1064#16, epoch := 2400000#32, alert := true, missed := 4, body := .lateResponse 7310 } =
      [0x04#8, 0x28#8, 0x0A#8, 0x80#8, 0x04#8, 0x00#8, 0x24#8, 0x9F#8, 0x00#8, 0x00#8, 0x1C#8, 0x8E#8, 0#8, 0#8, 0#8,
        0#8] := by decide +kernel

/-- The power-on value of ALERT_KINDS holds exactly the kinds of R189. -/
theorem test_alertKinds :
    (List.range 16).map (Params.defaults.alertKinds.getLsbD ·) =
      [false, false, false, false, false, true, true, true, true, true, false, false, true, true, true, false] := by
  decide +kernel

/-- A list of fuse slots as in the example of section 8.3. -/
def exampleArray : List FuseWord :=
  [(FuseRecord.map 5000 0).word, (FuseRecord.map 812 1).word, (FuseRecord.ban 4).word, (FuseRecord.map 5000 2).word,
    0x0000080000#40, (FuseRecord.map 300000 6).word, (FuseRecord.map 44 1).word, (FuseRecord.ban 1).word,
    (FuseRecord.map 7 9).word ^^^ 1#40] ++ List.replicate 23 0#40

/-- The part after loading that list under 4 GiB straps. -/
def exampleLoaded : State := after (exec (.powerOn ⟨1#2, false⟩ true true) { State.reset with fuseArray := exampleArray })

/-- The example of section 8.3: pointer, entries and FUSE_SPOILED records. -/
theorem test_exampleLoad :
    exampleLoaded.fuse.appendPtr = some 9 ∧ entryAt exampleLoaded.table 0 = .retired (some 5000) (some 0) false false ∧
      entryAt exampleLoaded.table 1 = .retired (some 812) (some 7) true false ∧
      entryAt exampleLoaded.table 2 = .hard 5000 3 ∧ entryAt exampleLoaded.table 4 = .retired none (some 2) true false ∧
      exampleLoaded.table.countP (fun e => e == .free) = 124 ∧
      exampleLoaded.recs.handed.map Handed.body =
        [.fuseSpoiled 4 .torn, .fuseSpoiled 5 .range, .fuseSpoiled 6 .conflict, .fuseSpoiled 8 .check] ∧
      exampleLoaded.translate 5000 = 262018 ∧ exampleLoaded.translate 812 = 812 ∧ exampleLoaded.translate 44 = 44 := by
  decide +kernel

/-- Under 16 GiB straps slot 5 of that list applies (section 8.3). -/
theorem test_exampleLoadLarge :
    entryAt (after (exec (.powerOn ⟨3#2, false⟩ true true) { State.reset with fuseArray := exampleArray })).table 6 =
      .hard 300000 5 := by decide +kernel

/-! ### Well-formedness -/

/-- Terms no port can carry, one for each check. -/
theorem test_illFormed :
    [Instr.upstreamRequest .read 0#8 0#2 0#34 [{ data := 0#512, poison := false }], .upstreamOtherMessage 1#4,
      .upstreamOtherMessage 2#4, .downstreamOtherMessage 8#4, .downstreamOtherMessage 9#4, .slotDeadlineExpiry 64,
      .bitProgrammed 39 true, ofLevels (bitsOf [0x01#8, 0x00#8, 0x15#8]),
      ofLevels (bitsOf [0x02#8, 0x00#8, 0x2A#8] ++ [true]), .unknownCommand 0x01#8 [],
      .unknownCommand 0xFF#8 (List.replicate 13 0#8), .resultRead (List.replicate 13 0#8) 0, .resultRead [0#8] 1].all
        (fun i => !i.wellFormed) = true ∧
      (Command.all.filter fun c => c != .resultRead).all
        (fun c => !(c.instr (List.replicate 13 0#8)).wellFormed && (c.instr (List.replicate 12 0#8)).wellFormed) =
          true := by decide +kernel

/-- The opcode table gives no bits, so no word spells a command and the queue stays as it is. -/
theorem test_noWord : decodeTableWord 8 0 = none ∧ (State.withFetchWord quiet 8 1).pending = [] := by decide +kernel

/-! ### Step, power and reset -/

/-- StepTakesFrontCommand, its three clauses. -/
theorem test_step :
    answers (step { quiet with pending := [.start, .claim] }) { quiet with pending := [.claim] } = true ∧
      answers (step { quiet with patrol := { state := .gap 199, block := 0, quad := 0 } })
        { quiet with
          clock := { quiet.clock with now := 5000001 }, patrol := { state := .gap 200, block := 0, quad := 0 } } = true ∧
      answers (step { quiet with pwrOk := false }) { quiet with pwrOk := false } = true := by decide +kernel

/-- PowerCycles: a power loss, a command while the supply is low, a power-on. -/
theorem test_power :
    quiet.pwrOk = true ∧ (after (exec .powerLoss quiet)).pwrOk = false ∧
      answers (exec .epochTick { quiet with pwrOk := false }) { quiet with pwrOk := false } = true ∧
      (after (exec (.powerOn ⟨3#2, true⟩ false true) quiet)).limit = 1048448 ∧
      (after (exec (.powerOn ⟨0#2, true⟩ true false) { quiet with pwrOk := false })).capacityBlocks = 131072 ∧
      (after (exec (.powerOn ⟨0#2, true⟩ true false) { quiet with pwrOk := false })).port.mcs = .lowNoFrame := by
  decide +kernel

/-- LoadingAppliesFuseRecords: an array of 32 slots. -/
theorem test_loading : exampleArray.length = 32 ∧ exampleLoaded.fuse.appendPtr = some 9 := by decide +kernel

/-- LoadingAppliesFuseRecords, the VALID slots that conflict: a second BAN of a spare, a BAN of a superseded spare, a MAP of a
banned one; and the entries they leave, at spare 127 and slot 31. -/
theorem test_loadConflicts :
    let array := [(FuseRecord.ban 127).word, (FuseRecord.ban 127).word, (FuseRecord.map 5 0).word, (FuseRecord.map 5 1).word,
      (FuseRecord.ban 0).word, (FuseRecord.map 5 127).word] ++ List.replicate 25 0#40 ++ [(FuseRecord.map 6 2).word]
    let s := after (exec (.powerOn ⟨0#2, false⟩ true true) { State.reset with fuseArray := array })
    (array.length = 32 ∧ s.fuse.appendPtr = some 32) ∧
      ([0, 1, 4, 5, 30].map fun k => (s.fuse.images[k]?.join.map SlotImage.kind)) =
        [some .valid, some (.spoiled (.load .conflict)), some .valid, some (.spoiled (.load .conflict)),
          some (.spoiled (.load .torn))] ∧
      entryAt s.table 127 = .retired none (some 0) true false ∧ entryAt s.table 0 = .retired (some 5) (some 4) true false ∧
      entryAt s.table 1 = .hard 5 3 ∧ entryAt s.table 2 = .hard 6 31 ∧ entryAt s.table 3 = .free := by decide +kernel

/-- The part that LOADING leaves, with PRST_N at a level. -/
def loaded (prst : Bool) : State := after (exec (.powerOn ⟨0#2, false⟩ prst true) State.reset)

/-- The part loaded with that list once the record unit has taken LOADING's four records. -/
def exampleTaken : State := (List.range 4).foldl (fun s _ => after (exec (.takeRecord 0) s)) exampleLoaded

/-- ReadyAndRiseReleaseLinks: READY with PRST_N low and high, with a record of LOADING waiting and with every one taken, and the
rise in READY and in LOADING. -/
theorem test_ready :
    ((loaded false).pwrOk = true ∧ (loaded false).fuse.part = .loading ∧ (loaded false).fuse.capacity ≠ none ∧
        (loaded false).fuse.appendPtr ≠ none ∧ (loaded false).prstN = false ∧ (loaded true).prstN = true ∧
        (loaded true).recs.handed = [] ∧ (loaded false).recs.handed = []) ∧
      (answers (exec .ready exampleLoaded) exampleLoaded = true ∧ exampleTaken.recs.alertLow = true ∧
        exampleTaken.recs.queue.length = 4 ∧ (after (exec .ready exampleTaken)).fuse.part = .ready) ∧
      (after (exec .ready (loaded true))).upSent = [.credit 64#8] ∧ (after (exec .ready (loaded true))).req.credits = 64 ∧
      (after (exec .ready (loaded true))).patrol.state = .gap 0 ∧ (after (exec .ready (loaded false))).upSent = [] ∧
      (after (exec .ready (loaded false))).mig.startEvent = true ∧
      (after (exec .prstNRise (after (exec .ready (loaded false))))).arb.linkUp = true ∧
      answers (exec .prstNRise (loaded false)) { loaded false with prstN := true } = true := by decide +kernel

/-- PrstFallEmptiesPaths: in IDLE, and in COPYING, where the target is released and the request goes back. -/
theorem test_prstFall :
    (quiet.pwrOk = true ∧ quiet.prstN = true ∧ quiet.mig.context = .idle) ∧
      (after (exec .prstNFall quiet)).req.credits = 0 ∧
      (after (exec .prstNFall (copying 2 none))).mig.waiting = [move.req] ∧
      entryAt (after (exec .prstNFall (copying 2 none))).table 3 = .free ∧
      (after (exec .prstNFall (copying 2 none))).recs.handed.map Handed.body = [.migAborted 5000 .portReset] := by
  decide +kernel

/-- FweAndTickAdvance in each programmer state, at the tick before 190 ms and at 190 ms, and the last tick before a wrap; the
decay count below its period, at it, with an expiry due, and with DECAY_PERIOD 0. -/
theorem test_tick :
    answers (exec (.fweChange true) quiet) { quiet with fwe := true } = true ∧
      (after (exec .epochTick { quiet with clock := { epoch := 0xFFFFFFFF#32, now := 0, tickAt := 1000 } })).clock =
        { epoch := 0#32, now := 1000, tickAt := 2000 } ∧
      (let atCount := fun c d => { quiet with watch := { quiet.watch with decayCount := c, decayDue := d } };
        (after (exec .epochTick (atCount 59998 false))).watch = (atCount 59999 false).watch ∧
          (after (exec .epochTick (atCount 59999 false))).watch = (atCount 0 true).watch ∧
          (after (exec .epochTick (suspecting (atCount 0 true) (suspect 5000 9 0)))).watch =
            (suspecting (atCount 1 false) (suspect 5000 4 0)).watch ∧
          (after (exec .epochTick { atCount 7 true with
            port := { quiet.port with params := { quiet.params with decayPeriod := 0 } } })).watch = quiet.watch) ∧
      (after (exec .epochTick
        { quiet with fuse := { quiet.fuse with programmer := .programming 0 (.ban 0) 188 0#40 } })).fuse.programmer =
          .programming 0 (.ban 0) 189 0#40 ∧
      (after (exec .epochTick
        { quiet with fuse := { quiet.fuse with programmer := .programming 0 (.ban 0) 189 0#40 } })).fuse.programmer =
          .verifying 0 (.ban 0) 190 ∧
      (after (exec .epochTick
        { quiet with fuse := { quiet.fuse with programmer := .verifying 0 (.ban 0) 200 } })).fuse.programmer =
          .verifying 0 (.ban 0) 200 := by decide +kernel

/-! ### Request path -/

/-- MessagesDiscardedOrCounted: a grant that reaches 128, and one that would pass it. -/
theorem test_messages :
    (quiet.pwrOk = true ∧ quiet.arb.linkUp = true) ∧
      (after (exec (.downstreamCreditGrant 120#8) quiet)).arb.credits = 128 ∧
      (after (exec (.downstreamCreditGrant 255#8) quiet)).arb.credits = 128 ∧
      answers (exec (.upstreamOtherMessage 3#4) quiet) quiet = true ∧
      answers (exec (.downstreamOtherMessage 0#4) quiet) quiet = true := by decide +kernel

/-- No slot of the quiet part is in use. -/
theorem quiet_no_slot (x : Slot) : some x ∉ quiet.req.slots := by
  have h : quiet.req.slots = List.replicate 64 none := rfl
  rw [h, List.mem_replicate]
  simp

/-- ArrivalRejectedByFirstCheck, clause by clause: no credit; a tag in use; size code 3, an address one line off, a write with a
beat too many; the first block beyond the limit. -/
theorem test_arrivalRejected :
    (after (exec (.upstreamRequest .read 9#8 0#2 0#34 []) { quiet with req := { quiet.req with credits := 0 } })).upSent =
        [.response 9#8 (.rejected .overrun) 0#2 []] ∧
      (some (ask .read) ∈ (withSlot quiet (ask .read)).req.slots ∧ (withSlot quiet (ask .read)).req.credits ≠ 0) ∧
      (after (exec (.upstreamRequest .read 9#8 0#2 0#34 []) (withSlot quiet (ask .read)))).upSent =
        [.response 9#8 (.rejected .tagInUse) 0#2 [], .credit 1#8] ∧
      ((quiet.req.credits ≠ 0 ∧ (64#34).toNat % (64 * 2 ^ (1#2).toNat) ≠ 0) ∧
        (after (exec (.upstreamRequest .read 9#8 1#2 64#34 []) quiet)).upSent =
          [.response 9#8 (.rejected .align) 1#2 [], .credit 1#8]) ∧
      (after (exec (.upstreamRequest .read 9#8 3#2 0#34 []) quiet)).upSent =
        [.response 9#8 (.rejected .align) 3#2 [], .credit 1#8] ∧
      (after (exec (.upstreamRequest .write 9#8 0#2 0#34 (List.replicate 2 { data := 0#512, poison := false })) quiet)).upSent =
        [.response 9#8 (.rejected .align) 0#2 [], .credit 1#8] ∧
      (quiet.limit ≤ (2145386496#34).toNat / 16384 ∧
        (after (exec (.upstreamRequest .read 9#8 0#2 2145386496#34 []) quiet)).upSent =
          [.response 9#8 (.rejected .range) 0#2 [], .credit 1#8]) := by decide +kernel

/-- No tag is in use in the quiet part, whatever the tag. -/
theorem test_noTagInUse (tag : Tag) : ∀ x : Slot, some x ∈ quiet.req.slots → x.answered = false → x.tag ≠ tag :=
  fun x h => absurd h (quiet_no_slot x)

/-- ArrivalAccepted, its two clauses: the last line below the limit is QUEUED, a write to the locked quad goes to the hold
buffer. -/
theorem test_arrivalAccepted :
    (quiet.req.slots[0]? = some none ∧ quiet.req.credits ≠ 0 ∧ (2145386432#34).toNat % (64 * Size.one.lines) = 0 ∧
        (2145386432#34).toNat / 16384 < quiet.limit) ∧
      (after (exec (.upstreamRequest .read 9#8 0#2 2145386432#34 []) quiet)).req.relay = [0] ∧
      (after (exec (.upstreamRequest .read 9#8 0#2 2145386432#34 []) quiet)).req.credits = 63 ∧
      ((copying 2 (some .claimed)).mig.context.locks ((81920512#34).toNat / 16384) ((81920512#34).toNat % 16384 / 256) =
            true ∧ (copying 2 (some .claimed)).req.hold.length < 4) ∧
      (after (exec (.upstreamRequest .write 9#8 0#2 81920512#34 [{ data := 7#512, poison := false }])
        (copying 2 (some .claimed)))).req.hold = [0] ∧
      (after (exec (.upstreamRequest .write 9#8 0#2 81920512#34 [{ data := 7#512, poison := false }])
        (copying 2 (some .claimed)))).req.relay = [] := by decide +kernel

/-- SteeringByQuadAndLock at the copied, the locked and the next quad, and for another block. -/
theorem test_steering :
    (Context.copying move 3 none).steer 5000 2 .write = .dual 5000 3 ∧
      (Context.copying move 3 none).steer 5000 2 .read = .target 3 ∧
      (Context.copying move 3 (some .claimed)).steer 5000 3 .write = .held 5000 ∧
      (Context.copying move 3 none).steer 5000 3 .write = .source 5000 ∧
      (Context.copying move 3 (some .claimed)).steer 5000 4 .write = .source 5000 ∧
      (Context.finishing move).steer 5000 63 .write = .target 3 ∧
      ((Context.finishing move).l? ≠ some 4999 ∧
        (Context.finishing move).steer 4999 63 .write = .notUnderMigration) := by decide +kernel

/-- TranslationOrder and PhysicalBlockClasses: a SOFT entry, a HARD entry, the home block, and every class; and the address
example of chapter 1. -/
theorem test_translation :
    (((withEntry 127 (.soft 7 true)).table.filterMap Entry.serves?).Nodup ∧
        entryAt (withEntry 127 (.soft 7 true)).table 127 = .soft 7 true ∧
        (withEntry 127 (.soft 7 true)).translate 7 = 131071) ∧
      ((withEntry 0 (.hard 7 3)).translate 7 = 130944 ∧ quiet.translate 130943 = 130943) ∧
      (quiet.classify 130943 = .homeInUse 130943 ∧ (withEntry 0 (.hard 7 3)).classify 7 = .homeRemapped ∧
        quiet.classify 131071 = .freeSpare 127 ∧ (withEntry 127 (.reserved 7)).classify 131071 = .migrationTarget 127 ∧
        (withEntry 127 (.soft 7 true)).classify 131071 = .servingSpare 127 7 ∧
        (withEntry 0 (.hard 7 3)).classify 130944 = .servingSpare 0 7 ∧
        (withEntry 127 (.retired none none false false)).classify 131071 = .retiredSpare 127) := by decide +kernel

/-! ### Grants -/

/-- RelayIssuesOneRequest: a read of block 5,000, the pointer at a held tag, so the first free tag wraps. -/
def relayState : State :=
  { withSlot quiet (ask .read) with
    arb := { quiet.arb with nextTag := 255#8, outstanding := [(255#8, entryTo 9 .read)] } }

theorem test_relayIssues :
    (relayState.req.relay = [0] ∧ relayState.req.slots[0]? = some (some (ask .read)) ∧
        relayState.mig.context.locks (ask .read).l (ask .read).q = false ∧ relayState.backgroundOffers = false ∧
        1 ≤ relayState.arb.credits ∧ relayState.arb.outstanding.length < 256 ∧
        (0#8 ∉ relayState.arb.outstanding.map Prod.fst ∧
          ∀ n < (0#8 - relayState.arb.nextTag).toNat,
            relayState.arb.nextTag + BitVec.ofNat 8 n ∈ relayState.arb.outstanding.map Prod.fst) ∧
        relayState.mig.context.steer (ask .read).l (ask .read).q .read = .notUnderMigration ∧
        relayState.translate (ask .read).l = 5000) ∧
      (after (exec .issueGrant relayState)).downSent = [.read 0#8 0#2 81920512#34] ∧
      (after (exec .issueGrant relayState)).arb.nextTag = 1#8 ∧
      (after (exec .issueGrant relayState)).req.slots[0]? =
        some (some { ask .read with
          state := .active, first := some { block := 5000, tag := 0#8, answer := none } }) := by decide +kernel

/-- DualWriteIssuesTwoRequests: a write to quad 2 with three quads copied, and the last credits. -/
def dualState : State :=
  { withSlot (copying 3 none) (ask .write) with arb := { quiet.arb with credits := 2 } }

theorem test_dualWrite :
    (dualState.req.relay = [0] ∧ dualState.req.slots[0]? = some (some (ask .write)) ∧
        (ask .write).payload = some [{ data := 7#512, poison := false }] ∧ (ask .write).l = move.req.l ∧
        (ask .write).q = 2 ∧ dualState.backgroundOffers = false ∧ dualState.arb.outstanding = [] ∧
        dualState.arb.nextTag = 0#8) ∧
      (after (exec .issueGrant dualState)).arb.credits = 0 ∧
      (after (exec .issueGrant dualState)).downSent =
        [.write 0#8 0#2 81920512#34 [{ data := 7#512, poison := false }],
          .write 1#8 0#2 (BitVec.ofNat 34 (130947 * 16384 + 512)) [{ data := 7#512, poison := false }]] := by
  decide +kernel

/-- BackgroundGrants: a copy read, a copy write, and a patrol read with no copy offered; the first by the share. -/
theorem test_backgroundGrants :
    (let s := { withSlot (copying 3 (some (.reading none))) (ask .read) with arb := { quiet.arb with bgWait := 16 } };
      s.params.bgShare ≤ s.arb.bgWait ∧
        (after (exec .issueGrant s)).downSent = [.read 0#8 2#2 (BitVec.ofNat 34 (5000 * 16384 + 768))] ∧
        (after (exec .issueGrant s)).mig.context =
          .copying move 3 (some (.reading (some { tag := 0#8, deadline := 5002000 })))) ∧
      (let s := copying 63 (some (.writing (List.replicate 4 { data := 1#512, poison := false }) none));
        s.req.relay = [] ∧
          (after (exec .issueGrant s)).downSent =
            [.write 0#8 2#2 (BitVec.ofNat 34 (130947 * 16384 + 63 * 256))
              (List.replicate 4 { data := 1#512, poison := false })]) ∧
      (let s := { quiet with patrol := { state := .offered 131071 63, block := 131071, quad := 63 } };
        s.mig.context.offersCopy = false ∧
          (after (exec .issueGrant s)).patrol.state = .reading 131071 63 0#8 5002000) := by decide +kernel

/-- NoGrantTaken: no credit, the link in reset, and a held head. -/
theorem test_noGrant :
    answers (exec .issueGrant { withSlot quiet (ask .read) with arb := { quiet.arb with credits := 0 } })
        { withSlot quiet (ask .read) with arb := { quiet.arb with credits := 0 } } = true ∧
      answers (exec .issueGrant { withSlot quiet (ask .read) with arb := { quiet.arb with linkUp := false } })
        { withSlot quiet (ask .read) with arb := { quiet.arb with linkUp := false } } = true ∧
      (let s := withSlot (copying 2 (some .claimed)) (ask .write);
        s.mig.context.locks (ask .write).l (ask .write).q = true ∧ s.backgroundOffers = false ∧
          (after (exec .issueGrant s)).req.hold = [0] ∧ (after (exec .issueGrant s)).arb = s.arb) := by decide +kernel

/-- The state with tracker slots 0 to 5 in use and the relay queue and hold buffer given. -/
def queued (s : State) (x : Slot) (relay hold : List Nat) : State :=
  { s with
    req :=
      { credits := 58
        slots := (List.range 6).map (fun k => some { x with tag := BitVec.ofNat 8 k }) ++ List.replicate 58 none
        relay := relay, hold := hold } }

/-- BackgroundGrants with a relay queue: a dual write that finds one credit, and a queue stalled behind a full hold buffer. -/
theorem test_backgroundPastRelay :
    (let s := { withSlot (copying 3 (some (.reading none))) (ask .write) with arb := { quiet.arb with credits := 1 } };
      s.mig.context.steer (ask .write).l (ask .write).q .write = .dual 5000 3 ∧ s.arb.bgWait < s.params.bgShare ∧
        (after (exec .issueGrant s)).downSent = [.read 0#8 2#2 (BitVec.ofNat 34 (5000 * 16384 + 768))] ∧
        (after (exec .issueGrant s)).req = s.req) ∧
      (let s := queued (copying 2 (some (.reading none))) (ask .write) [4, 5] [0, 1, 2, 3];
        (s.mig.context.locks (ask .write).l (ask .write).q = true ∧ 4 ≤ s.req.hold.length) ∧
          (after (exec .issueGrant s)).downSent = [.read 0#8 2#2 (BitVec.ofNat 34 (5000 * 16384 + 512))] ∧
          (after (exec .issueGrant s)).req = s.req) := by decide +kernel

/-- NoGrantTaken, the head found held with more to choose: the next slot is issued, the next two held slots fill the hold buffer
and the copy read is granted, and the copy read is granted behind the only slot. -/
theorem test_chooseAgain :
    (let s := queued (copying 2 (some (.reading none))) (ask .write) [0, 1] [];
      let s1 := { s with
        req := { s.req with slots := s.req.slots.set 1 (some { ask .write with addr := 81920512#34 + 256#34 }) } };
      (after (exec .issueGrant s1)).req.hold = [0] ∧ (after (exec .issueGrant s1)).req.relay = [] ∧
        (after (exec .issueGrant s1)).arb.bgWait = 1 ∧
        (after (exec .issueGrant s1)).downSent =
          [.write 0#8 0#2 (BitVec.ofNat 34 (5000 * 16384 + 768)) [{ data := 7#512, poison := false }]]) ∧
      (let s := queued (copying 2 (some (.reading none))) (ask .write) [2, 3, 4] [0, 1];
        (after (exec .issueGrant s)).req.hold = [0, 1, 2, 3] ∧ (after (exec .issueGrant s)).req.relay = [4] ∧
          (after (exec .issueGrant s)).downSent = [.read 0#8 2#2 (BitVec.ofNat 34 (5000 * 16384 + 512))] ∧
          answers (exec .issueGrant s)
            (after (exec .issueGrant
              { s with
                req :=
                  { s.req with
                    slots := s.req.slots.set 2 (some { ask .write with state := .held, tag := 2#8 }), relay := [3, 4],
                    hold := [0, 1, 2] } })) = true) := by decide +kernel

/-! ### Responses -/

/-- Slot 0 ACTIVE with one half outstanding under tag 4. -/
def active (kind : Access) (state : SlotState) : Slot :=
  { ask kind with
    state := state, answered := state == .orphan, first := some { block := 5000, tag := 4#8, answer := none } }

/-- ReadAnsweredUpstream: a free tag, a good answer, a side field of 3. -/
theorem test_readAnswered :
    (4#8 ∉ quiet.arb.outstanding.map Prod.fst ∧
        answers (exec (.downstreamResponse 4#8 0#2 [] false) quiet) quiet = true) ∧
      (let s := inFlight (withSlot quiet (active .read .active)) (entryTo 5000 .read);
        ((s.arb.outstanding.map Prod.fst).Nodup ∧ (4#8, entryTo 5000 .read) ∈ s.arb.outstanding ∧
            s.req.slots[0]? = some (some (active .read .active))) ∧
          (after (exec (.downstreamResponse 4#8 0#2 [{ data := 5#512, side := 1#2 }] false) s)).upSent =
            [.response 9#8 .done 0#2 [{ data := 5#512, side := 1#2 }], .credit 1#8] ∧
          (after (exec (.downstreamResponse 4#8 0#2 [{ data := 5#512, side := 1#2 }] false) s)).watch.reports =
            [{ block := 5000, quad := 2, items := [(0, .corrected)] }] ∧
          (after (exec (.downstreamResponse 4#8 0#2 [{ data := 5#512, side := 3#2 }] false) s)).upSent =
            [.response 9#8 .failed 0#2 [], .credit 1#8]) := by decide +kernel

/-- Slot 0 ACTIVE with a dual write whose first half has the answer given. -/
def dual (a : Option DoneOrFailed) : Slot :=
  { ask .write with
    state := .active
    first := some { block := 5000, tag := 6#8, answer := a }
    second := some { block := 130947, tag := 4#8, answer := none }
    merged := a.map fun x => { status := x, lines := [] } }

/-- DualAndLateAnswers: the second answer of a dual write that fails at T; the first one; the answer of an ORPHAN. -/
theorem test_dualAnswers :
    (let s := inFlight (withSlot (copying 3 none) (dual (some .done))) (entryTo 130947 .write);
      (after (exec (.downstreamResponse 4#8 2#2 [] false) s)).upSent =
          [.response 9#8 .failed 0#2 [], .credit 1#8] ∧
        (after (exec (.downstreamResponse 4#8 2#2 [] false) s)).mig.failures = [{ spare := 3, cause := .writeFail }] ∧
        (after (exec (.downstreamResponse 4#8 1#2 [] false) s)).upSent = [.response 9#8 .done 0#2 [], .credit 1#8]) ∧
      (let x : Slot := { dual none with first := (dual none).second, second := (dual none).first };
        let s := inFlight (withSlot (copying 3 none) x) (entryTo 5000 .write);
        (after (exec (.downstreamResponse 4#8 1#2 [] false) s)).upSent = [] ∧
          (after (exec (.downstreamResponse 4#8 1#2 [] false) s)).req.slots[0]? =
            some (some { x with
              first := some { block := 130947, tag := 4#8, answer := some .done }
              merged := some { status := .done, lines := [] } })) ∧
      (let s := inFlight (withSlot quiet (active .read .orphan)) (entryTo 5000 .read);
        (after (exec (.downstreamResponse 4#8 2#2 [] false) s)).upSent = [.credit 1#8] ∧
          (after (exec (.downstreamResponse 4#8 2#2 [] false) s)).watch.reports =
            [{ block := 5000, quad := 2, items := [(0, .failed)] }] ∧
          (after (exec (.downstreamResponse 4#8 2#2 [] false) s)).recs.handed.map Handed.body = [.lateResponse 5000]) := by
  decide +kernel

/-- ReadAnsweredUpstream: a WRITE of one half answered DONE and FAILED; and the report of a bad read taken first, which fires and
retires the free spare read before the patrol unit finds it. -/
theorem test_writeAndReportFirst :
    (let s := inFlight (withSlot quiet (active .write .active)) (entryTo 5000 .write);
      s.mig.context = .idle ∧
        (after (exec (.downstreamResponse 4#8 1#2 [] true) s)).upSent = [.response 9#8 .done 0#2 [], .credit 1#8] ∧
        (after (exec (.downstreamResponse 4#8 0#2 [] false) s)).upSent =
          [.response 9#8 .failed 0#2 [], .credit 1#8]) ∧
      (let e : OutEntry := { owner := .patrol, block := 130945, quad := 63, firstLine := 0, size := .four, dir := .read };
        let s := inFlight
          { quiet with patrol := { state := .reading 130945 63 4#8 5001000, block := 130945, quad := 63 } } e;
        (after (exec (.downstreamResponse 4#8 2#2 [] true) s)).recs.handed.map Handed.body =
            [.ueLimit 130945 none 1 .none, .spareBanned 1 .errorLimit] ∧
          (after (exec (.downstreamResponse 4#8 2#2 [] true) s)).watch.reports = [] ∧
          (after (exec (.downstreamResponse 4#8 2#2 [] false) s)).recs.handed.map Handed.body =
            [.spareBanned 1 .patrol]) := by decide +kernel

/-- DualAndLateAnswers, the rest: the T half fails first; the S half answers last; an ORPHAN of two halves at its first and at its
last answer, and an ORPHAN of one half written. -/
theorem test_lateAnswers :
    (let s := inFlight (withSlot (copying 3 none) (dual none)) (entryTo 130947 .write);
      (after (exec (.downstreamResponse 4#8 2#2 [] false) s)).upSent = [] ∧
        (after (exec (.downstreamResponse 4#8 2#2 [] false) s)).mig.failures = [{ spare := 3, cause := .writeFail }]) ∧
      (let x : Slot := { dual none with
          first := some { block := 5000, tag := 4#8, answer := none }
          second := some { block := 130947, tag := 6#8, answer := some .failed }
          merged := some { status := .failed, lines := [] } };
        let s := inFlight (withSlot (copying 3 none) x) (entryTo 5000 .write);
        (after (exec (.downstreamResponse 4#8 1#2 [] false) s)).upSent = [.response 9#8 .failed 0#2 [], .credit 1#8] ∧
          (after (exec (.downstreamResponse 4#8 1#2 [] false) s)).mig.failures = []) ∧
      (let late := fun a : Option DoneOrFailed => { dual a with state := .orphan, answered := true };
        let first := inFlight (withSlot (copying 3 none) (late none)) (entryTo 130947 .write);
        let last := inFlight (withSlot (copying 3 none) (late (some .done))) (entryTo 130947 .write);
        (after (exec (.downstreamResponse 4#8 1#2 [] false) first)).recs.handed = [] ∧
          (after (exec (.downstreamResponse 4#8 1#2 [] false) first)).req.credits = 63 ∧
          (after (exec (.downstreamResponse 4#8 2#2 [] false) last)).upSent = [.credit 1#8] ∧
          (after (exec (.downstreamResponse 4#8 2#2 [] false) last)).mig.failures =
            [{ spare := 3, cause := .writeFail }] ∧
          (after (exec (.downstreamResponse 4#8 2#2 [] false) last)).recs.handed.map Handed.body =
            [.lateResponse 130947]) ∧
      (let s := inFlight (withSlot quiet (active .write .orphan)) (entryTo 5000 .write);
        (after (exec (.downstreamResponse 4#8 1#2 [] true) s)).upSent = [.credit 1#8] ∧
          (after (exec (.downstreamResponse 4#8 1#2 [] true) s)).recs.handed.map Handed.body = [.lateResponse 5000]) := by
  decide +kernel

/-- SlotDeadlineTimesOut: QUEUED, ACTIVE with its first half answered, and ORPHAN. -/
theorem test_slotDeadline :
    (let s := withSlot (copying 3 none) (ask .write);
      (s.mig.context.steer (ask .write).l (ask .write).q .write = .dual 5000 3) ∧
        (after (exec (.slotDeadlineExpiry 0) s)).upSent = [.response 9#8 .timeout 0#2 [], .credit 1#8] ∧
        (after (exec (.slotDeadlineExpiry 0) s)).recs.handed.map Handed.body = [.respTimeout .request 5000] ∧
        (after (exec (.slotDeadlineExpiry 0) s)).clock.now = 5002000) ∧
      (let s := withSlot (copying 3 none) (dual (some .done));
        (after (exec (.slotDeadlineExpiry 0) s)).recs.handed.map Handed.body = [.respTimeout .request 130947] ∧
          (after (exec (.slotDeadlineExpiry 0) s)).req.credits = 63) ∧
      (let s := withSlot quiet (active .read .orphan);
        answers (exec (.slotDeadlineExpiry 0) s) s = true ∧ answers (exec (.slotDeadlineExpiry 63) s) s = true) := by
  decide +kernel

/-- The part copying quad p under a lock, six slots writing to quad p; slot 0 is x, the others are QUEUED, and HELD in the
hold buffer. -/
def contended (p : Nat) (x : Slot) (relay hold : List Nat) : State :=
  let s := queued (copying p (some (.reading none))) { ask .write with addr := BitVec.ofNat 34 (81920000 + 256 * p) } relay hold
  let held := hold.foldl (fun t k => t.modify k (Option.map fun x => { x with state := .held })) s.req.slots
  { s with req := { s.req with slots := held.set 0 (some x) } }

/-- RelayIssuesOneRequest, DualWriteIssuesTwoRequests and SlotDeadlineTimesOut, the next head: after an issue and an expiry of
the head it is held, and the next in turn; a held slot's expiry ends a stall, and one behind the head tests nothing. -/
theorem test_nextHeads :
    (let s := contended 2 { ask .read with addr := 0#34 } [0, 1, 2] [];
      (s.mig.context.locks 5000 2 = true ∧ s.mig.context.locks 0 0 = false) ∧
        (after (exec .issueGrant s)).req.relay = [] ∧ (after (exec .issueGrant s)).req.hold = [1, 2] ∧
        ((after (exec .issueGrant s)).req.slots.take 3).map (fun x => x.map Slot.state) =
          [some .active, some .held, some .held] ∧
        (after (exec .issueGrant s)).req.slots.drop 3 = s.req.slots.drop 3) ∧
      (let s := contended 3 (ask .write) [0, 1, 2] [];
        (after (exec .issueGrant s)).arb.outstanding.length = 2 ∧ (after (exec .issueGrant s)).req.hold = [1, 2] ∧
          (after (exec (.slotDeadlineExpiry 0) s)).req.relay = [] ∧
          (after (exec (.slotDeadlineExpiry 0) s)).req.hold = [1, 2] ∧
          (after (exec (.slotDeadlineExpiry 2) s)).req.relay = [0, 1] ∧
          (after (exec (.slotDeadlineExpiry 2) s)).req.hold = []) ∧
      (let s := contended 2 { ask .write with state := .held } [4, 5] [0, 1, 2, 3];
        4 ≤ s.req.hold.length ∧ (after (exec (.slotDeadlineExpiry 0) s)).req.hold = [1, 2, 3, 4] ∧
          (after (exec (.slotDeadlineExpiry 0) s)).req.relay = [5] ∧
          (after (exec (.slotDeadlineExpiry 0) s)).req.slots[4]?.map (fun x => x.map Slot.state) = some (some .held)) := by
  decide +kernel

/-- CopyDeadlineStops, CopyResponsesMoveTheCopy and AbortMigrationCommand: the held slots return as QUEUED, ahead of the
others. -/
theorem test_heldReturn :
    let s := contended 2 { ask .write with state := .held } [4, 5] [0, 1]
    let copying := fun lock => { s with
      mig := { s.mig with context := .copying move 2 (some (lock (some { tag := 4#8, deadline := 5001000 }))) }
      arb :=
        { s.arb with
          outstanding :=
            [(4#8, { owner := .copy, block := 130947, quad := 2, firstLine := 0, size := .four, dir := .write })] } }
    let writing := copying (Lock.writing (List.replicate 4 { data := 1#512, poison := false }))
    [after (exec .copyDeadlineExpiry (copying Lock.reading)), after (exec .copyDeadlineExpiry writing),
        after (exec (.abortMigration []) s), after (exec (.downstreamResponse 4#8 1#2 [] false) writing),
        after (exec (.downstreamResponse 4#8 2#2 [] false) writing)].all (fun u =>
      u.req.relay == [0, 1, 4, 5] && u.req.hold == [] && u.req.credits == s.req.credits &&
        (u.req.slots.take 6).all (fun x => x.map Slot.state == some .queued)) = true := by decide +kernel

/-! ### Migration -/

/-- The quiet part with one waiting request for block 5,000 and a start event. -/
def waiting (o : Origin) : State :=
  { quiet with
    mig :=
      { quiet.mig with
        waiting := [{ l := 5000, origin := o, retry := 0, enqueued := 4000#32 }], startEvent := true } }

/-- StartReservesLowestSpare: spare 0 in flight, so spare 1 is taken; and no spare left. -/
theorem test_start :
    (let s := inFlight (waiting .manual) (entryTo 130944 .read);
      (¬(entryAt s.table 0 = .free ∧ ∀ x ∈ s.arb.outstanding, x.2.block ≠ s.limit + 0)) ∧
        (entryAt s.table 1 = .free ∧ ∀ x ∈ s.arb.outstanding, x.2.block ≠ s.limit + 1) ∧
        (∀ e ∈ s.table, e.serves? = some 5000 → e.commitPending = false) ∧
        entryAt (after (exec .start s)).table 1 = .reserved 5000 ∧
        (after (exec .start s)).mig.context =
          .copying
            { req := { l := 5000, origin := .manual, retry := 0, enqueued := 4000#32 }, source := 5000, target := 1 } 0
            none) ∧
      (let s := suspecting
          { waiting (.auto 5000) with table := List.replicate 128 (.retired none none false false) } (suspect 5000 0 1);
        (∀ k < 128, entryAt s.table k ≠ .free) ∧
          (after (exec .start s)).recs.handed.map Handed.body = [.noSpare 5000] ∧
          (after (exec .start s)).watch.suspects[0]? = some (some { suspect 5000 0 1 with denied := true })) := by
  decide +kernel

/-- ClaimWaitsForWrites: with and without a write outstanding to the quad, at quad 63 too. -/
theorem test_claim :
    (after (exec .claim (inFlight (copying 2 none) (entryTo 5000 .write)))).mig.context =
        .copying move 2 (some .claimed) ∧
      (after (exec .claim (copying 63 none))).mig.context = .copying move 63 (some (.reading none)) ∧
      answers (exec .claimDrainMet (inFlight (copying 2 (some .claimed)) (entryTo 5000 .write)))
        (inFlight (copying 2 (some .claimed)) (entryTo 5000 .write)) = true ∧
      (after (exec .claimDrainMet (copying 2 (some .claimed)))).mig.context = .copying move 2 (some (.reading none)) := by
  decide +kernel

/-- The part finishing, its source a HARD spare. -/
def finishing : State :=
  { quiet with
    table := (quiet.table.set 3 (.reserved 5000)).set 127 (.hard 5000 31)
    mig := { quiet.mig with context := .finishing { move with source := 131071 } } }

/-- PrstFallEmptiesPaths: in FINISHING with a write to S outstanding, from a HARD spare with a suspect entry. -/
theorem test_prstFallCommits :
    let s := inFlight (suspecting finishing (suspect 131071 3 0)) (entryTo 131071 .write)
    (s.watch.blocks.Nodup ∧ s.table.length = 128 ∧ 131071 ≠ s.limit + 3) ∧
      entryAt (after (exec .prstNFall s)).table 3 = .soft 5000 false ∧
      entryAt (after (exec .prstNFall s)).table 127 = .retired (some 5000) (some 31) false false ∧
      (after (exec .prstNFall s)).watch.suspects[0]? = some none ∧
      (after (exec .prstNFall s)).mig = { s.mig with context := .idle, startEvent := true } ∧
      (after (exec .prstNFall s)).recs.handed.map Handed.body = [.migDone 5000 131071 3] ∧
      (after (exec .prstNFall s)).arb.outstanding = [] := by decide +kernel

/-- ClaimWaitsForWrites, CommitSwitchesTranslation and ReadAnsweredUpstream by a response: the last write to the quad, or to S, is
answered; and with another outstanding. -/
theorem test_drainByResponse :
    (let s := inFlight (withSlot (copying 2 (some .claimed)) (active .write .active)) (entryTo 5000 .write);
      let s1 := { s with arb := { s.arb with outstanding := s.arb.outstanding ++ [(5#8, entryTo 5000 .write)] } };
      (after (exec (.downstreamResponse 4#8 1#2 [] false) s)).mig.context = .copying move 2 (some (.reading none)) ∧
        (after (exec (.downstreamResponse 4#8 1#2 [] false) s)).upSent = [.response 9#8 .done 0#2 [], .credit 1#8] ∧
        (after (exec (.downstreamResponse 4#8 0#2 [] true) s1)).upSent = [.response 9#8 .failed 0#2 [], .credit 1#8] ∧
        (after (exec (.downstreamResponse 4#8 1#2 [] false) s1)).mig.context = .copying move 2 (some .claimed)) ∧
      (let s := inFlight (withSlot finishing (active .write .orphan)) (entryTo 131071 .write);
        let s1 := { s with arb := { s.arb with outstanding := s.arb.outstanding ++ [(5#8, entryTo 131071 .write)] } };
        (after (exec (.downstreamResponse 4#8 2#2 [] true) s)).mig.context = .idle ∧
          entryAt (after (exec (.downstreamResponse 4#8 2#2 [] true) s)).table 127 =
            .retired (some 5000) (some 31) false false ∧
          (after (exec (.downstreamResponse 4#8 2#2 [] true) s)).recs.handed.map Handed.body =
            [.lateResponse 131071, .migDone 5000 131071 3] ∧
          (after (exec (.downstreamResponse 4#8 2#2 [] true) s1)).mig.context = finishing.mig.context) := by
  decide +kernel

/-- CommitSwitchesTranslation: from a HARD spare, with a suspect entry of S; and with a write outstanding. -/
theorem test_commit :
    (let s := suspecting finishing (suspect 131071 3 0);
      (s.watch.blocks.Nodup ∧ s.table.length = 128 ∧ 131071 ≠ s.limit + 3) ∧
        entryAt (after (exec .commit s)).table 3 = .soft 5000 false ∧
        entryAt (after (exec .commit s)).table 127 = .retired (some 5000) (some 31) false false ∧
        (after (exec .commit s)).watch.suspects[0]? = some none ∧
        (after (exec .commit s)).recs.handed.map Handed.body = [.migDone 5000 131071 3]) ∧
      answers (exec .commit (inFlight finishing (entryTo 131071 .write)))
        (inFlight finishing (entryTo 131071 .write)) = true := by decide +kernel

/-- The copying part at quad 2 with a copy request in flight under tag 4. -/
def copyInFlight (retry : Nat) (lock : InFlight → Lock) : State :=
  { copying 2 none with
    mig :=
      { quiet.mig with
        context :=
          .copying { move with req := { move.req with retry := retry } } 2
            (some (lock { tag := 4#8, deadline := 5001000 })) } }

/-- The four lines of a copy buffer. -/
def lines : List WriteLine := List.replicate 4 { data := 1#512, poison := false }

/-- CopyDeadlineStops: a read; a write at the retry limit and above it. -/
theorem test_copyDeadline :
    (after (exec .copyDeadlineExpiry (copyInFlight 0 fun c => .reading (some c)))).recs.handed.map Handed.body =
        [.migFailed 5000 .timeout] ∧
      (after (exec .copyDeadlineExpiry (copyInFlight 1 fun c => .writing lines (some c)))).mig.waiting =
        [{ move.req with retry := 2 }] ∧
      (after (exec .copyDeadlineExpiry (copyInFlight 2 fun c => .writing lines (some c)))).recs.handed.map Handed.body =
        [.targetBad 5000 3 .writeTimeout, .migFailed 5000 .retries] ∧
      (after (exec .copyDeadlineExpiry (copyInFlight 2 fun c => .writing lines (some c)))).table =
        quiet.table.set 3 (.retired none none false false) := by decide +kernel

/-- TargetFailureRetires: a report that names the target, with no lock and with a slot held under one, and one that does not. -/
theorem test_targetFailure :
    (let s := { copying 2 none with
        mig := { (copying 2 none).mig with failures := [{ spare := 3, cause := .errorLimit }] } };
      (after (exec (.targetFailure 0) s)).mig.waiting = [{ move.req with retry := 1 }] ∧
        (after (exec (.targetFailure 0) s)).req = s.req ∧
        (after (exec (.targetFailure 0) s)).recs.handed.map Handed.body = [.targetBad 5000 3 .errorLimit]) ∧
      (let s := queued (copying 2 (some (.reading none))) (ask .write) [4, 5] [0, 1];
        let held := { s with
          req := { s.req with slots := s.req.slots.set 1 (some { ask .write with state := .held, tag := 1#8 }) }
          mig := { s.mig with failures := [{ spare := 3, cause := .writeFail }] } };
        (after (exec (.targetFailure 0) held)).req = { s.req with relay := [0, 1, 4, 5], hold := [] } ∧
          (after (exec (.targetFailure 0) held)).mig.context = .idle) ∧
      (let s := { copying 2 none with
          mig := { (copying 2 none).mig with failures := [{ spare := 4, cause := .errorLimit }] } };
        answers (exec (.targetFailure 0) s) (copying 2 none) = true) := by decide +kernel

/-- The entry of a copy request of quad 2 of block p. -/
def copyEntry (p : Nat) (dir : Access) : OutEntry :=
  { owner := .copy, block := p, quad := 2, firstLine := 0, size := .four, dir := dir }

/-- CopyResponsesMoveTheCopy: the awaited read with one line UNCORRECTABLE, the awaited write, and a response not awaited. -/
theorem test_copyResponses :
    (let s := inFlight (copyInFlight 0 fun c => .reading (some c)) (copyEntry 5000 .read);
      let beats : List ReadBeat := [{ data := 1#512, side := 0#2 }, { data := 1#512, side := 2#2 },
        { data := 1#512, side := 1#2 }, { data := 1#512, side := 0#2 }];
      beats.length = (copyEntry 5000 .read).size.lines ∧ (∀ b ∈ beats, b.side ≠ 3#2) ∧
        (after (exec (.downstreamResponse 4#8 0#2 beats false) s)).recs.handed.map Handed.body =
          [.copyPoison 5000 9 5000] ∧
        (after (exec (.downstreamResponse 4#8 0#2 beats false) s)).watch.reports =
          [{ block := 5000, quad := 2, items := [(0, .ok), (1, .uncorrectable), (2, .corrected), (3, .ok)] }] ∧
        (after (exec (.downstreamResponse 4#8 0#2 beats false) s)).mig.context =
          .copying move 2
            (some (.writing
              [{ data := 1#512, poison := false }, { data := 1#512, poison := true },
                { data := 1#512, poison := false }, { data := 1#512, poison := false }] none))) ∧
      (let s := inFlight (copyInFlight 0 fun c => .writing lines (some c)) (copyEntry 130947 .write);
        (after (exec (.downstreamResponse 4#8 1#2 [] false) s)).mig.context = .copying move 3 none) ∧
      (let s := inFlight (copying 2 none) (copyEntry 130947 .write);
        answers (exec (.downstreamResponse 4#8 1#2 [] false) s) (copying 2 none) = true) := by decide +kernel

/-- CopyResponsesMoveTheCopy, the rest: the copy read FAILED; the copy write of quad 63 with S drained and not; the copy write
FAILED at the retry limit and above it. -/
theorem test_copyEnds :
    (let s := inFlight (copyInFlight 0 fun c => .reading (some c)) (copyEntry 5000 .read);
      (after (exec (.downstreamResponse 4#8 2#2 [] false) s)).recs.handed.map Handed.body =
          [.copyPoison 5000 8 5000, .copyPoison 5000 9 5000, .copyPoison 5000 10 5000, .copyPoison 5000 11 5000] ∧
        (after (exec (.downstreamResponse 4#8 2#2 [] false) s)).mig.context =
          .copying move 2 (some (.writing (List.replicate 4 { data := 0#512, poison := true }) none))) ∧
      (let s := inFlight (copying 63 (some (.writing lines (some { tag := 4#8, deadline := 5001000 }))))
          (copyEntry 130947 .write);
        let s1 := { s with arb := { s.arb with outstanding := s.arb.outstanding ++ [(5#8, entryTo 5000 .write)] } };
        (s.table.length = 128 ∧ s.watch.blocks.Nodup ∧ 5000 ≠ s.limit + 3) ∧
          (after (exec (.downstreamResponse 4#8 1#2 [] false) s)).mig.context = .idle ∧
          entryAt (after (exec (.downstreamResponse 4#8 1#2 [] false) s)).table 3 = .soft 5000 false ∧
          (after (exec (.downstreamResponse 4#8 1#2 [] false) s1)).mig.context = .finishing move) ∧
      ([1, 2].map fun retry =>
          let s := inFlight (copyInFlight retry fun c => .writing lines (some c)) (copyEntry 130947 .write);
          (after (exec (.downstreamResponse 4#8 2#2 [] false) s)).recs.handed.map Handed.body) =
        [[.targetBad 5000 3 .writeFail], [.targetBad 5000 3 .writeFail, .migFailed 5000 .retries]] := by decide +kernel

/-- The arguments that name logical block 5,000, the first block beyond the limit, and a spare after block 5,000. -/
def arg5000 : List Byte := [0x00#8, 0x13#8, 0x88#8]

/-- RetireAndCancelCommands, clause by clause. -/
theorem test_retire :
    ((quiet.pwrOk = true ∧ quiet.isReady = true) ∧ ofBe arg5000 = 5000 ∧ ofBe [0x01#8, 0xFF#8, 0x80#8] = quiet.limit) ∧
      answers (exec (.retire [0x01#8, 0xFF#8, 0x80#8]) quiet) (quiet.answered .retire 3 .range []) = true ∧
      answers (exec (.retire arg5000) (copying 2 none)) ((copying 2 none).answered .retire 3 .already []) = true ∧
      (let s := { quiet with
          mig := { quiet.mig with
            waiting := (List.range 8).map fun i => { l := i, origin := .manual, retry := 0, enqueued := 0#32 } } };
        8 ≤ s.mig.occupancy ∧ answers (exec (.retire arg5000) s) (s.answered .retire 3 .full []) = true) ∧
      (after (exec (.retire arg5000) quiet)).port.result.payload = [0x00#8, 0x13#8, 0x88#8, 1#8] ∧
      (after (exec (.retire arg5000) quiet)).mig.waiting =
        [{ l := 5000, origin := .manual, retry := 0, enqueued := 5000#32 }] ∧
      answers (exec (.cancelRetire [0x01#8, 0xFF#8, 0x80#8]) quiet) (quiet.answered .cancelRetire 3 .range []) = true ∧
      answers (exec (.cancelRetire arg5000) quiet) (quiet.answered .cancelRetire 3 .none []) = true ∧
      (after (exec (.cancelRetire arg5000) (waiting .manual))).port.result.payload =
        [1#8, 0#8, 0#8, 0#8, 0x0F#8, 0xA0#8] ∧
      (after (exec (.cancelRetire arg5000) (waiting .manual))).mig.waiting = [] := by decide +kernel

/-- AbortMigrationCommand, clause by clause. -/
theorem test_abort :
    answers (exec (.abortMigration []) quiet) (quiet.answered .abortMigration 0 .none []) = true ∧
      answers (exec (.abortMigration []) finishing) (finishing.answered .abortMigration 0 .tooLate []) = true ∧
      (after (exec (.abortMigration []) (copying 2 (some .claimed)))).port.result.payload =
        [0x00#8, 0x13#8, 0x88#8, 3#8, 2#8] ∧
      (after (exec (.abortMigration []) (copying 2 none))).table = quiet.table := by decide +kernel

/-- ReadMigrationCommand, clause by clause. -/
theorem test_readMigration :
    (after (exec (.readMigration []) quiet)).port.result.payload =
        [0, 0, 0, 0, 0, 0, 0, 0, 0, 255, 255, 0, 0, 0, 0, 0, 0, 0, 0, 0, 0, 0, 0, 0].map (BitVec.ofNat 8 ·) ∧
      (after (exec (.readMigration []) (copying 2 (some .claimed)))).port.result.payload =
        [1, 0, 0x13, 0x88, 0, 0x13, 0x88, 3, 2, 2, 0, 0, 0, 0, 0x13, 0x88, 1, 0, 0, 0x0F, 0xA0, 0, 1, 0].map
          (BitVec.ofNat 8 ·) ∧
      (after (exec (.readMigration []) finishing)).port.result.payload =
        [2, 0, 0x13, 0x88, 1, 0xFF, 0xFF, 3, 64, 255, 255, 0, 0, 0, 0x13, 0x88, 1, 0, 0, 0x0F, 0xA0, 0, 1, 0].map
          (BitVec.ofNat 8 ·) ∧
      answers (exec (.readMigration [8#8]) quiet) (quiet.answered .readMigration 1 .range []) = true ∧
      answers (exec (.readMigration [7#8]) quiet) (quiet.answered .readMigration 1 .none []) = true ∧
      (after (exec (.readMigration [0#8]) (waiting .manual))).port.result.payload =
        [0, 0, 0x13, 0x88, 1, 0, 0, 0, 0, 0, 0, 0, 0x0F, 0xA0].map (BitVec.ofNat 8 ·) := by decide +kernel

/-! ### Error watch -/

/-- The suspect table of the quiet part with every position holding an entry of another block with both counts and flags given. -/
def fullTable (fired : Bool) : State :=
  { quiet with
    watch :=
      { quiet.watch with
        suspects := (List.range 32).map fun i => some { suspect (200 + i) 3 0 with
          ceFired := fired, ue := if i = 0 then 1 else 0, last := BitVec.ofNat 32 (4000 - (if i = 17 then 1 else 0)) } } }

/-- StatusReportCounts: into an entry one below its limit, into one whose other class stands at its limit unfired, into a
saturated fired entry, at the lowest free position, and in the place of the victim, the oldest of the lowest counts (the last
position of R102's three). -/
theorem test_statusReport :
    (let s := reporting (suspecting quiet (suspect 5000 22 0)) 5000 .corrected;
      (s.watch.reports[0]? = some { block := 5000, quad := 2, items := [(1, .corrected)] } ∧ s.watch.blocks.Nodup ∧
          s.classify 5000 = .homeInUse 5000 ∧ s.watch.suspects[0]? = some (some (suspect 5000 22 0)) ∧
          22 + 1 < s.params.ceLimit) ∧
        answers (exec (.statusReport 0) s)
          (suspecting quiet { suspect 5000 23 0 with last := 5000#32 }) = true) ∧
      answers
          (exec (.statusReport 0)
            (reporting (suspecting quiet { suspect 5000 3 255 with ueFired := true }) 5000 .failed))
          (suspecting quiet { suspect 5000 3 255 with ueFired := true, last := 5000#32 }) = true ∧
      answers
          (exec (.statusReport 0)
            (reporting (suspecting quiet { suspect 5000 24 3 with ueFired := true }) 5000 .failed))
          (suspecting quiet { suspect 5000 24 4 with ueFired := true, last := 5000#32 }) = true ∧
      (let s := reporting (suspecting quiet (suspect 4999 3 0)) 5000 .corrected;
        (5000 ∉ s.watch.blocks ∧ s.watch.suspects[1]? = some none ∧ ∀ j < 1, s.watch.suspects[j]? ≠ some none) ∧
          (after (exec (.statusReport 0) s)).watch.suspects[1]? =
            some (some { suspect 5000 1 0 with first := 5000#32, last := 5000#32 })) ∧
      (let s := reporting (fullTable false) 5000 .corrected;
        (5000 ∉ s.watch.blocks ∧ none ∉ s.watch.suspects ∧ s.watch.blocks.Nodup) ∧
          (after (exec (.statusReport 0) s)).watch.suspects[17]? =
            some (some { suspect 5000 1 0 with first := 5000#32, last := 5000#32 }) ∧
          (after (exec (.statusReport 0) s)).watch.suspects[0]? = s.watch.suspects[0]?) := by decide +kernel

/-- ReportsNotCounted: all items OK; a home block remapped away; a full table with every entry fired, reported once. -/
theorem test_notCounted :
    answers (exec (.statusReport 0) (reporting quiet 5000 .ok)) quiet = true ∧
      answers (exec (.statusReport 0) (reporting (withEntry 0 (.hard 5000 1)) 5000 .failed)) (withEntry 0 (.hard 5000 1)) =
        true ∧
      (let s := reporting (fullTable true) 5000 .failed;
        (5000 ∉ s.watch.blocks ∧ (s.watch.suspects.all fun x => x.any fun e => e.ceFired) = true ∧
            s.watch.fullReported = false) ∧
          (after (exec (.statusReport 0) s)).recs.handed.map Handed.body = [.suspectFull 5000] ∧
          (after (exec (.statusReport 0) s)).watch.fullReported = true ∧
          (after (exec (.statusReport 0) s)).watch.suspects = s.watch.suspects) ∧
      (let s := { fullTable true with watch := { (fullTable true).watch with fullReported := true } };
        answers (exec (.statusReport 0) (reporting s 5000 .failed)) s = true) := by decide +kernel

/-- The quiet part with the parameters changed. -/
def tuned (s : State) (f : Params → Params) : State := { s with port := { s.port with params := f s.port.params } }

/-- LimitFiringActs: ALERT at the limit under MANUAL and under AUTO, NONE, and each outcome of RETIRE. -/
theorem test_firing :
    (let s := reporting (suspecting quiet (suspect 5000 23 0)) 5000 .corrected;
      (s.params.limit .ce ≤ 24 ∧ s.params.action .ce = .alert) ∧
        (after (exec (.statusReport 0) s)).recs.handed =
          [{ producer := .watch, body := .ceLimit 5000 (some 5000) 24 .none, action := some .alert }] ∧
        (after (exec (.statusReport 0) s)).watch.suspects[0]? =
          some (some { suspect 5000 24 0 with last := 5000#32, ceFired := true }) ∧
        (after (exec (.statusReport 0) (tuned s fun p => { p with rearmMode := .auto }))).watch.suspects[0]? =
          some (some { suspect 5000 0 0 with last := 5000#32 }) ∧
        (after (exec (.statusReport 0) (tuned s fun p => { p with ceAction := .none }))).watch.suspects[0]? =
          some (some { suspect 5000 24 0 with last := 5000#32 })) ∧
      (let s := reporting quiet 5000 .uncorrectable;
        (after (exec (.statusReport 0) s)).mig.waiting =
            [{ l := 5000, origin := .auto 5000, retry := 0, enqueued := 5000#32 }] ∧
          (after (exec (.statusReport 0) s)).recs.handed =
            [{ producer := .watch, body := .ueLimit 5000 (some 5000) 1 .none, action := some .retire }]) ∧
      (let s := reporting (copying 2 none) 5000 .uncorrectable;
        5000 ∈ s.mig.blocks ∧ (after (exec (.statusReport 0) s)).mig.waiting = []) ∧
      (let s := { reporting quiet 5000 .uncorrectable with
          mig := { quiet.mig with
            waiting := (List.range 8).map fun i => { l := i, origin := .manual, retry := 0, enqueued := 0#32 } } };
        5000 ∉ s.mig.blocks ∧ 8 ≤ s.mig.occupancy ∧
          ((after (exec (.statusReport 0) s)).watch.suspects[0]?.join.map Suspect.denied) = some true ∧
          (after (exec (.statusReport 0) s)).recs.handed.map Handed.body = [.ueLimit 5000 (some 5000) 1 .queueFull]) ∧
      (let s := reporting quiet 131071 .failed;
        s.classify 131071 = .freeSpare 127 ∧
          (after (exec (.statusReport 0) s)).recs.handed.map Handed.body =
            [.ueLimit 131071 none 1 .none, .spareBanned 127 .errorLimit] ∧
          entryAt (after (exec (.statusReport 0) s)).table 127 = .retired none none false false) ∧
      (let s := reporting (copying 2 none) 130947 .failed;
        s.classify 130947 = .migrationTarget 3 ∧
          (after (exec (.statusReport 0) s)).mig.failures = [{ spare := 3, cause := .errorLimit, firing := some 0 }] ∧
          (after (exec (.statusReport 0) s)).watch.firings = 1) := by decide +kernel

/-- LimitFiringActs, a report with two error items: of the home block, where the second one fires, taken whole and in two
parts; of a FREE spare, where both classes fire in either order. -/
theorem test_twoErrors :
    (let items : List (Nat × ItemStatus) := [(0, .corrected), (1, .uncorrectable)];
      let whole : StatusReport := { block := 5000, quad := 2, items := items };
      let taken := fun (s : State) (r : StatusReport) =>
        after (exec (.statusReport 0) { s with watch := { s.watch with reports := [r] } });
      let part := taken quiet { whole with items := items.take 1 };
      part.classify 5000 = quiet.classify 5000 ∧
        answers (exec (.statusReport 0) { quiet with watch := { quiet.watch with reports := [whole] } })
          (taken part { whole with items := items.drop 1 }) = true ∧
        (taken quiet whole).recs.handed.map Handed.body = [.ueLimit 5000 (some 5000) 1 .none]) ∧
      ([[(0, ItemStatus.corrected), (1, .ok), (2, .failed)], [(0, .uncorrectable), (2, .corrected)]].map fun items =>
          let s := tuned { quiet with watch := { quiet.watch with reports := [{ block := 131071, quad := 2, items }] } }
            fun p => { p with ceLimit := 1, ceAction := .retire };
          (after (exec (.statusReport 0) s)).recs.handed.map Handed.body) =
        [[.ceLimit 131071 none 1 .none, .spareBanned 127 .errorLimit, .ueLimit 131071 none 1 .none],
          [.ueLimit 131071 none 1 .none, .spareBanned 127 .errorLimit, .ceLimit 131071 none 1 .none]] := by
  decide +kernel

/-- The part after a report of these items of FREE spare 127 has been taken, under these parameters. -/
def reportedSpare (items : List (Nat × ItemStatus)) (f : Params → Params) : State :=
  let s := { quiet with watch := { quiet.watch with reports := [{ block := 131071, quad := 2, items := items }] } }
  after (exec (.statusReport 0) (tuned s f))

/-- The counts of the first suspect entry. -/
def firstCounts (s : State) : Option (Nat × Nat) := s.watch.suspects[0]?.join.map fun e => (e.ce, e.ue)

/-- Items of both classes, in turn. -/
def mixed : List (Nat × ItemStatus) := [(0, .failed), (1, .corrected), (2, .failed), (3, .corrected)]

/-- LimitFiringActs, a FAILED read of four lines of a FREE spare: the first item retires it, the others count. -/
theorem test_failedSpare :
    (let u := reportedSpare ([0, 1, 2, 3].map fun j => (j, .failed)) id;
      entryAt u.table 127 = .retired none none false false ∧ firstCounts u = some (0, 4) ∧
        u.recs.handed.map Handed.body = [.ueLimit 131071 none 1 .none, .spareBanned 127 .errorLimit]) := by
  decide +kernel

/-- LimitFiringActs, later items of the other class that fire with ALERT under AUTO, twice. -/
theorem test_alertsAfterRetirement :
    (let u := reportedSpare mixed fun p => { p with ceLimit := 1, rearmMode := .auto };
      entryAt u.table 127 = .retired none none false false ∧ firstCounts u = some (0, 2) ∧
        u.recs.handed.map Handed.body =
          [.ueLimit 131071 none 1 .none, .spareBanned 127 .errorLimit, .ceLimit 131071 none 1 .none,
            .ceLimit 131071 none 1 .none]) := by decide +kernel

/-- LimitFiringActs, a later item of the other class that fires with RETIRE, behind others that count. -/
theorem test_retiresAfterRetirement :
    (let u := reportedSpare mixed fun p => { p with ceLimit := 2, ceAction := .retire };
      entryAt u.table 127 = .retired none none false false ∧ firstCounts u = some (2, 2) ∧
        u.recs.handed.map Handed.body =
          [.ueLimit 131071 none 1 .none, .spareBanned 127 .errorLimit, .ceLimit 131071 none 2 .none]) := by
  decide +kernel

/-- DecayHalves: one entry freed with the flag cleared, one kept by its UE count; an expiry that is due, which takes no time;
and no expiry with DECAY_PERIOD 0. -/
theorem test_decay :
    (let s := suspecting { quiet with watch := { quiet.watch with fullReported := true, decayCount := 59999 } }
        (suspect 5000 1 0);
      s.params.decayPeriod ≠ 0 ∧ (after (exec .decayExpiry s)).watch.suspects[0]? = some none ∧
        (after (exec .decayExpiry s)).watch.fullReported = false ∧
        (after (exec .decayExpiry s)).clock.epoch = 5001#32 ∧ (after (exec .decayExpiry s)).watch.decayCount = 0) ∧
      answers
          (exec .decayExpiry (suspecting { quiet with watch := { quiet.watch with decayCount := 3, decayDue := true } }
            (suspect 5000 9 0)))
          (suspecting { quiet with watch := { quiet.watch with decayCount := 3 } } (suspect 5000 4 0)) = true ∧
      (after (exec .decayExpiry (suspecting quiet (suspect 5000 255 1)))).watch.suspects[0]? =
        some (some (suspect 5000 127 1)) ∧
      answers (exec .decayExpiry (tuned quiet fun p => { p with decayPeriod := 0 }))
        (tuned quiet fun p => { p with decayPeriod := 0 }) = true := by decide +kernel

/-- SuspectCommands, clause by clause. -/
theorem test_suspectCommands :
    answers (exec (.readSuspect [32#8]) quiet) (quiet.answered .readSuspect 1 .range []) = true ∧
      answers (exec (.readSuspect [31#8]) quiet) (quiet.answered .readSuspect 1 .none []) = true ∧
      (after (exec (.readSuspect [0#8]) (suspecting quiet { suspect 5000 24 1 with ueFired := true }))).port.result.payload =
        [0, 0, 0, 0x13, 0x88, 0, 0x13, 0x88, 24, 1, 0, 0, 0x03, 0xE8, 0, 0, 0x07, 0xD0, 10, 0, 0, 0x13, 0x88].map
          (BitVec.ofNat 8 ·) ∧
      (ofBe [2#8, 0#8, 0#8] = quiet.capacityBlocks ∧
        answers (exec (.clearSuspect [2#8, 0#8, 0#8]) quiet) (quiet.answered .clearSuspect 3 .range []) = true ∧
        answers (exec (.rearm [2#8, 0#8, 0#8]) quiet) (quiet.answered .rearm 3 .range []) = true) ∧
      answers (exec (.clearSuspect arg5000) quiet) (quiet.answered .clearSuspect 3 .none []) = true ∧
      answers (exec (.rearm arg5000) quiet) (quiet.answered .rearm 3 .none []) = true ∧
      answers (exec (.clearSuspect arg5000) (suspecting quiet { suspect 5000 24 1 with denied := true }))
        (quiet.answered .clearSuspect 3 .ok [24#8, 1#8, 4#8]) = true ∧
      answers (exec (.rearm arg5000) (suspecting quiet { suspect 5000 24 1 with ceFired := true, denied := true }))
        ((suspecting quiet (suspect 5000 0 0)).answered .rearm 3 .ok []) = true := by decide +kernel

/-! ### Patrol -/

/-- The quiet part with a patrol state and the cursor. -/
def patrolling (st : PatrolState) (block quad : Nat) : State :=
  { quiet with patrol := { state := st, block := block, quad := quad } }

/-- PatrolAttempts: the gap; a live block; the last block, not live; a block not live before it; another state. -/
theorem test_patrolAttempts :
    (after (exec .gapExpiry (patrolling (.gap 150) 7 3))).patrol.state = .seeking ∧
      (after (exec .gapExpiry (patrolling (.gap 150) 7 3))).clock.now = 5000050 ∧
      (quiet.classify 131071 = .freeSpare 127 ∧
        (after (exec .issueAttempt (patrolling .seeking 131071 63))).patrol.state = .offered 131071 63) ∧
      (let s := { patrolling .seeking 131071 5 with table := quiet.table.set 127 (.retired none none false false) };
        s.capacityBlocks ≤ 131071 + 1 ∧
          (after (exec .issueAttempt s)).patrol = { state := .seeking, block := 0, quad := 0 }) ∧
      (let s := { copying 2 none with patrol := { state := .seeking, block := 5000, quad := 5 } };
        (after (exec .issueAttempt s)).patrol = { state := .seeking, block := 5001, quad := 0 }) ∧
      answers (exec .issueAttempt quiet) quiet = true ∧ answers (exec .gapExpiry quiet) quiet = true := by decide +kernel

/-- The entry of a patrol read of block p. -/
def patrolEntry (p : Nat) : OutEntry :=
  { owner := .patrol, block := p, quad := 63, firstLine := 0, size := .four, dir := .read }

/-- PatrolReadEnds: the deadline at quads 62 and 63 and in the last block; a bad answer from a free spare; an answer not
awaited. -/
theorem test_patrolEnds :
    (after (exec .patrolDeadlineExpiry (patrolling (.reading 7 62 4#8 5001000) 7 62))).patrol =
        { state := .gap 0, block := 7, quad := 63 } ∧
      (after (exec .patrolDeadlineExpiry (patrolling (.reading 7 63 4#8 5001000) 7 63))).patrol =
        { state := .gap 0, block := 8, quad := 0 } ∧
      (after (exec .patrolDeadlineExpiry
          (tuned (patrolling (.reading 131071 63 4#8 5001000) 131071 63) fun p => { p with patrolGap := 0 }))).patrol =
        { state := .off, block := 0, quad := 0 } ∧
      (after (exec .patrolDeadlineExpiry (patrolling (.reading 7 63 4#8 5001000) 7 63))).recs.handed.map Handed.body =
        [.respTimeout .patrol 7] ∧
      (let s := inFlight (patrolling (.reading 130945 63 4#8 5001000) 130945 63) (patrolEntry 130945);
        (s.limit ≤ 130945 ∧ entryAt s.table (130945 - s.limit) = .free) ∧
          (after (exec (.downstreamResponse 4#8 2#2 [] false) s)).recs.handed.map Handed.body =
            [.spareBanned 1 .patrol] ∧
          (after (exec (.downstreamResponse 4#8 2#2 [] false) s)).watch.reports =
            [{ block := 130945, quad := 63, items := [0, 1, 2, 3].map fun j => (j, .failed) }] ∧
          (after (exec (.downstreamResponse 4#8 0#2 (List.replicate 4 { data := 0#512, side := 1#2 }) false) s)).table =
            quiet.table ∧
          (after (exec (.downstreamResponse 4#8 0#2 (List.replicate 4 { data := 0#512, side := 1#2 }) false) s)).patrol =
            { state := .gap 0, block := 130946, quad := 0 }) ∧
      (let s := inFlight (patrolling (.reading 7 62 5#8 5001000) 7 62) (patrolEntry 130945);
        (after (exec (.downstreamResponse 4#8 2#2 [] false) s)).patrol = s.patrol ∧
          (after (exec (.downstreamResponse 4#8 2#2 [] false) s)).table = s.table) := by decide +kernel

/-! ### Records -/

/-- A record the request unit has handed. -/
def handed (b : RecordBody) : Handed := { producer := .request, body := b, action := none }

/-- RecordStoredOrDropped: the last place, a full queue, the store after a drop, and a record that must wait. -/
theorem test_takeRecord :
    (let s := holding ((List.range 63).map fun i => stored (1000 + i) false) 1063;
      let s1 := { s with recs := { s.recs with handed := [handed (.lateResponse 7310), handed (.respTimeout .request 7)] } };
      let s2 := after (exec (.takeRecord 0) s1);
      let s3 := after (exec (.takeRecord 0) s2);
      s.recs.queue.length < 64 ∧ s2.recs.queue.length = 64 ∧ s2.recs.nextSeq = 1064#16 ∧ s2.recs.alertLow = false ∧
        s3.recs.missed = 1 ∧ s3.recs.alertMissed = true ∧ s3.recs.alertLow = true ∧ s3.recs.queue = s2.recs.queue ∧
        answers (exec (.takeRecord 1) s1) s1 = true) ∧
      (let s := { holding [stored 65534 false] 65535 with
          recs :=
            { (holding [stored 65534 false] 65535).recs with
              missed := 4, alertMissed := true, alertLow := true, handed := [handed (.lateResponse 7)] } };
        (after (exec (.takeRecord 0) s)).recs =
          { queue :=
              [stored 65534 false,
                { seq := 65535#16, epoch := 5000#32, alert := true, missed := 4, body := .lateResponse 7 }]
            nextSeq := 0#16, missed := 0, alertMissed := false, alertLow := true, handed := [] }) := by decide +kernel

/-- Both classes fire in one report on the target, spare 3, and the first failure report is taken: the TARGET_BAD waits for the
limit record of its own firing, and not for the second one's, so CE_LIMIT, TARGET_BAD, UE_LIMIT is an order taken. -/
def bothFired : State :=
  let s := { copying 2 none with
    port := { quiet.port with params := { quiet.params with ceLimit := 1, ceAction := .retire } }
    watch := { quiet.watch with reports := [{ block := 130947, quad := 1, items := [(0, .corrected), (1, .failed)] }] } }
  after (exec (.targetFailure 0) (after (exec (.statusReport 0) s)))

theorem test_limitBeforeTarget :
    bothFired.recs.handed.map Handed.body =
        [.ceLimit 130947 none 1 .none, .ueLimit 130947 none 1 .none, .targetBad 5000 3 .errorLimit] ∧
      answers (exec (.takeRecord 2) bothFired) bothFired = true ∧
      answers (exec (.takeRecord 1) bothFired) bothFired = true ∧
      (let s := after (exec (.takeRecord 1) (after (exec (.takeRecord 0) bothFired)));
        (after (exec (.takeRecord 0) s)).recs.queue.map FaultRecord.body =
          [.ceLimit 130947 none 1 .none, .targetBad 5000 3 .errorLimit, .ueLimit 130947 none 1 .none]) := by
  decide +kernel

/-- FaultCommands, clause by clause, at positions 63 and 64 and at n of 0, 1, 3 and 4. -/
theorem test_faultCommands :
    (let s := holding [stored 65535 false, stored 0 true] 1;
      answers (exec (.readFaults [64#8, 1#8]) s) (s.answered .readFaults 2 .range []) = true ∧
        answers (exec (.readFaults [0#8, 0#8]) s) (s.answered .readFaults 2 .range []) = true ∧
        answers (exec (.readFaults [0#8, 4#8]) s) (s.answered .readFaults 2 .range []) = true ∧
        answers (exec (.readFaults [63#8, 3#8]) s) (s.answered .readFaults 2 .none []) = true ∧
        answers (exec (.readFaults [2#8, 1#8]) s) (s.answered .readFaults 2 .none []) = true ∧
        answers (exec (.readFaults [1#8, 3#8]) s) (s.answered .readFaults 2 .ok (stored 0 true).bytes) = true ∧
        answers (exec (.ackFaults [0#8, 1#8]) s) (s.answered .ackFaults 2 .none []) = true ∧
        answers (exec (.ackFaults [0xFF#8, 0xFF#8]) s)
          ((holding [stored 0 true] 1).answered .ackFaults 2 .ok [1#8, 1#8]) = true ∧
        answers (exec (.ackFaults [0#8, 0#8]) s) ((holding [] 1).answered .ackFaults 2 .ok [2#8, 0#8]) = true) := by
  decide +kernel

/-! ### Fuse unit -/

/-- The quiet part with FWE high, the append pointer given and an entry at spare 127. -/
def writable (ptr : Nat) (e : Entry) : State :=
  { withEntry 127 e with fwe := true, fuse := { quiet.fuse with appendPtr := some ptr } }

/-- The quiet part with the programmer in a state. -/
def programming (p : Programmer) : State := { writable 31 (.soft 5000 true) with
  fuse := { quiet.fuse with appendPtr := some 31, programmer := p } }

/-- CommitCommands, clause by clause, the pointer at 31 and at 32. -/
theorem test_commits :
    (let s := programming (.verifying 31 (.map 5000 127) 5);
      answers (exec (.commitHard [127#8]) s) (s.answered .commitHard 1 .busy []) = true ∧
        answers (exec (.commitBan [127#8]) s) (s.answered .commitBan 1 .busy []) = true) ∧
      answers (exec (.commitHard [127#8]) quiet) (quiet.answered .commitHard 1 .locked []) = true ∧
      answers (exec (.commitBan [127#8]) quiet) (quiet.answered .commitBan 1 .locked []) = true ∧
      (let s := writable 32 (.soft 5000 false);
        answers (exec (.commitHard [127#8]) s) (s.answered .commitHard 1 .noSlot []) = true ∧
          answers (exec (.commitBan [127#8]) s) (s.answered .commitBan 1 .noSlot []) = true) ∧
      (let s := writable 31 (.soft 5000 false);
        answers (exec (.commitHard [128#8]) s) (s.answered .commitHard 1 .range []) = true ∧
          answers (exec (.commitBan [128#8]) s) (s.answered .commitBan 1 .range []) = true ∧
          answers (exec (.commitHard [0#8]) s) (s.answered .commitHard 1 .state []) = true ∧
          answers (exec (.commitBan [127#8]) s) (s.answered .commitBan 1 .state []) = true ∧
          (let s1 := { s with mig := (waiting .manual).mig };
            answers (exec (.commitHard [127#8]) s1) (s1.answered .commitHard 1 .busy []) = true) ∧
          answers (exec (.commitHard [127#8]) s)
            ((programming (.programming 31 (.map 5000 127) 0 0#40)).answered .commitHard 1 .accepted
              [31#8, 0#8, 0#8, 0x13#8, 0x88#8, 127#8]) = true) ∧
      (let s := writable 31 (.retired none (some 2) true false);
        answers (exec (.commitBan [127#8]) s) (s.answered .commitBan 1 .already []) = true) ∧
      (after (exec (.commitBan [127#8]) (writable 0 (.retired (some 5000) none false false)))).port.result.payload =
        [0#8, 1#8, 0#8, 0#8, 0#8, 127#8] ∧
      entryAt (after (exec (.commitBan [127#8]) (writable 0 (.retired (some 5000) none false false)))).table 127 =
        .retired (some 5000) none false true := by decide +kernel

/-- ProgrammingSteps: a field bit, a check bit before and after the field bits, a bit of the record that is 0, the marker after
every bit, and the timeout, with a decay period of 100 ms too: two expiries fall on its 190 ticks. -/
theorem test_programming :
    (let s := programming (.programming 31 (.ban 0) 5 0#40);
      let s1 := after (exec (.bitProgrammed 38 true) s);
      let s2 := after (exec (.bitProgrammed 7 true) s1);
      (s.fuseArray[31]? = some 0#40 ∧ (FuseRecord.ban 0).word.getLsbD 38 = true) ∧
        s1.fuseArray[31]? = some 0x4000000000#40 ∧ s2.fuseArray[31]? = some 0x4000000080#40 ∧
        ((FuseRecord.ban 0).word.getLsbD 7 = true ∧ (0#40).getLsbD 38 = false) ∧
        answers (exec (.bitProgrammed 7 true) s) s = true ∧ answers (exec (.bitProgrammed 37 true) s) s = true ∧
        answers (exec (.bitProgrammed 38 true) s1) s1 = true ∧
        (after (exec (.bitProgrammed 38 false) s)).fuseArray[31]? = some 0#40 ∧
        (after (exec (.markerProgrammed true) s2)).fuseArray[31]? = some (FuseRecord.ban 0).word ∧
        (after (exec (.markerProgrammed false) s2)).fuseArray[31]? = some 0x40000000AA#40 ∧
        (after (exec (.markerProgrammed true) s2)).fuse.programmer = .verifying 31 (.ban 0) 5 ∧
        (after (exec .programmingTimeout s2)).fuse.programmer = .verifying 31 (.ban 0) 190 ∧
        (after (exec .programmingTimeout s2)).fuseArray = s2.fuseArray ∧
        (after (exec .programmingTimeout s2)).clock.epoch = 5185#32 ∧
        (after (exec .programmingTimeout s2)).watch = { quiet.watch with decayCount := 185 }) ∧
      (let s := suspecting
          (tuned { programming (.programming 31 (.ban 0) 0 0#40) with
              watch := { quiet.watch with decayCount := 50 } } fun p => { p with decayPeriod := 1 })
          (suspect 5000 255 1);
        (after (exec .programmingTimeout s)).watch =
          (suspecting { quiet with watch := { quiet.watch with decayCount := 40 } } (suspect 5000 63 1)).watch) ∧
      ([programming .idle, programming (.verifying 31 (.ban 0) 5)].all fun s =>
        answers (exec (.bitProgrammed 38 true) s) s && answers (exec (.markerProgrammed true) s) s &&
          answers (exec .programmingTimeout s) s) = true := by decide +kernel

/-- VerifyEnds: a match and a mismatch of a MAP record, and a match of a BAN record. -/
theorem test_verify :
    (let s := { programming (.verifying 31 (.map 5000 127) 150) with
        fuseArray := quiet.fuseArray.set 31 (FuseRecord.map 5000 127).word };
      (s.fuseArray[31]? = some (FuseRecord.map 5000 127).word ∧ entryAt s.table 127 = .soft 5000 true) ∧
        entryAt (after (exec .endOfVerifying s)).table 127 = .hard 5000 31 ∧
        (after (exec .endOfVerifying s)).fuse.appendPtr = some 32 ∧
        (after (exec .endOfVerifying s)).recs.handed.map Handed.body = [.fuseDone 31 127 .map]) ∧
      (let s := programming (.verifying 31 (.map 5000 127) 150);
        entryAt (after (exec .endOfVerifying s)).table 127 = .soft 5000 false ∧
          ((after (exec .endOfVerifying s)).fuse.images[31]?.join.map SlotImage.kind) = some (.spoiled .verify) ∧
          (after (exec .endOfVerifying s)).recs.handed.map Handed.body = [.fuseFailed 31 127]) ∧
      (let s := { programming (.verifying 31 (.ban 127) 150) with
          fuseArray := quiet.fuseArray.set 31 (FuseRecord.ban 127).word,
          table := quiet.table.set 127 (.retired none none false true) };
        entryAt (after (exec .endOfVerifying s)).table 127 = .retired none (some 31) true false) := by decide +kernel

/-- ReadMapAndFuse: each form of entry, spare 127 and 128; a BLANK, a VALID and a SPOILED slot image, slots 31 and 32. -/
theorem test_reads :
    answers (exec (.readMap [128#8]) quiet) (quiet.answered .readMap 1 .range []) = true ∧
      (after (exec (.readMap [127#8]) (inFlight quiet (entryTo 131071 .read)))).port.result.payload =
        [127, 1, 0xFF, 0xFF, 0, 16, 0, 0, 0, 0].map (BitVec.ofNat 8 ·) ∧
      (after (exec (.readMap [127#8]) (withEntry 127 (.reserved 5000)))).port.result.payload =
        [127, 1, 0xFF, 0xFF, 1, 1, 0, 0x13, 0x88, 0].map (BitVec.ofNat 8 ·) ∧
      (after (exec (.readMap [127#8]) (withEntry 127 (.soft 5000 true)))).port.result.payload =
        [127, 1, 0xFF, 0xFF, 2, 9, 0, 0x13, 0x88, 0].map (BitVec.ofNat 8 ·) ∧
      (after (exec (.readMap [127#8]) (withEntry 127 (.hard 5000 31)))).port.result.payload =
        [127, 1, 0xFF, 0xFF, 3, 3, 0, 0x13, 0x88, 31].map (BitVec.ofNat 8 ·) ∧
      (after (exec (.readMap [127#8]) (withEntry 127 (.retired none (some 31) true true)))).port.result.payload =
        [127, 1, 0xFF, 0xFF, 4, 14, 0, 0, 0, 31].map (BitVec.ofNat 8 ·) ∧
      answers (exec (.readFuse [32#8]) quiet) (quiet.answered .readFuse 1 .range []) = true ∧
      (after (exec (.readFuse [31#8]) (programming (.verifying 31 (.ban 0) 5)))).port.result.payload =
        [31, 0, 0, 0, 0, 0, 0, 255, 8, 0, 0, 0, 0, 0, 31, 2].map (BitVec.ofNat 8 ·) ∧
      (let s := after (exec .ready exampleTaken);
        (after (exec (.readFuse [0#8]) s)).port.result.payload.drop 6 =
            [1, 255, 7, 0, 0, 0x13, 0x88, 0, 9, 0].map (BitVec.ofNat 8 ·) ∧
          (after (exec (.readFuse [5#8]) s)).port.result.payload.drop 6 =
            [2, 2, 4, 0, 4, 0x93, 0xE0, 6, 9, 0].map (BitVec.ofNat 8 ·) ∧
          (after (exec (.readFuse [4#8]) s)).port.result.payload =
            [4, 0, 0, 8, 0, 0, 2, 0, 0, 0, 0, 0, 0, 0, 9, 0].map (BitVec.ofNat 8 ·)) := by decide +kernel

/-! ### Map unit commands -/

/-- MapSoftCommand, clause by clause, at the last block and the last spare. -/
theorem test_mapSoft :
    (ofBe ([0x01#8, 0xFF#8, 0x80#8, 0#8].take 3) = quiet.limit ∧
        answers (exec (.mapSoft [0x01#8, 0xFF#8, 0x80#8, 0#8]) quiet) (quiet.answered .mapSoft 4 .range []) = true) ∧
      answers (exec (.mapSoft [0#8, 0#8, 0#8, 128#8]) quiet) (quiet.answered .mapSoft 4 .range []) = true ∧
      (let s := withEntry 127 (.hard 7 1);
        answers (exec (.mapSoft [0#8, 0#8, 7#8, 127#8]) s) (s.answered .mapSoft 4 .state []) = true ∧
          answers (exec (.mapSoft [0#8, 0#8, 7#8, 0#8]) s)
            (State.answered
              { s with
                table := (s.table.set 127 (.retired (some 7) (some 1) false false)).set 0 (.soft 7 false) }
              .mapSoft 4 .ok [0#8, 127#8]) = true) ∧
      (let s := inFlight quiet (entryTo 131071 .read);
        answers (exec (.mapSoft [0#8, 0#8, 7#8, 127#8]) s) (s.answered .mapSoft 4 .busy []) = true) ∧
      answers (exec (.mapSoft (arg5000 ++ [127#8])) (waiting .manual)) ((waiting .manual).answered .mapSoft 4 .busy []) =
        true ∧
      (let s := withEntry 127 (.soft 7 false);
        (s.table.filterMap Entry.serves?).Nodup ∧
          answers (exec (.mapSoft [0#8, 0#8, 7#8, 0#8]) s) (s.answered .mapSoft 4 .state []) = true) ∧
      answers (exec (.mapSoft [0x01#8, 0xFF#8, 0x7F#8, 127#8]) quiet)
        ((withEntry 127 (.soft 130943 false)).answered .mapSoft 4 .ok [127#8, 0xFF#8]) = true := by decide +kernel

/-- UnmapAndBanCommands, clause by clause. -/
theorem test_unmapAndBan :
    answers (exec (.unmapSoft [128#8]) quiet) (quiet.answered .unmapSoft 1 .range []) = true ∧
      answers (exec (.banSpare [128#8]) quiet) (quiet.answered .banSpare 1 .range []) = true ∧
      answers (exec (.unmapSoft [127#8]) quiet) (quiet.answered .unmapSoft 1 .state []) = true ∧
      (let s := withEntry 127 (.soft 5000 true);
        answers (exec (.unmapSoft [127#8]) s) (s.answered .unmapSoft 1 .busy []) = true ∧
          answers (exec (.banSpare [127#8]) s) (s.answered .banSpare 1 .state []) = true) ∧
      answers (exec (.unmapSoft [127#8]) (withEntry 127 (.soft 5000 false)))
        (quiet.answered .unmapSoft 1 .ok [127#8, 0#8, 0x13#8, 0x88#8]) = true ∧
      (let s := withEntry 127 (.retired none none false false);
        answers (exec (.banSpare [127#8]) s) (s.answered .banSpare 1 .already []) = true ∧
          answers (exec (.banSpare [127#8]) quiet) (s.answered .banSpare 1 .ok [127#8]) = true) := by decide +kernel

/-! ### Management port -/

/-- FramesEnd: each reason at its boundary, and an unassigned code; the broken frame of section 9.9. -/
theorem test_framesEnd :
    (after (exec (ofLevels (bitsOf [0x20#8, 0x03#8, 0x00#8, 0x13#8, 0x88#8])) quiet)).port.result =
        { command := 0x20#8, result := .frame, payload := [2#8, 5#8] } ∧
      (after (exec (ofLevels (bitsOf [])) quiet)).port.result =
        { command := 0#8, result := .frame, payload := [2#8, 0#8] } ∧
      (after (exec (ofLevels (bitsOf [0x01#8, 13#8])) quiet)).port.result.payload = [1#8, 2#8] ∧
      (after
          (exec (ofLevels (bitsOf ([0x01#8, 12#8] ++ List.replicate 12 0#8) ++ List.replicate 7 true))
            quiet)).port.result.payload = [2#8, 14#8] ∧
      (after (exec (ofLevels (bitsOf [0x01#8, 0#8, 0#8])) quiet)).port.result.payload = [3#8, 3#8] ∧
      (after (exec (ofLevels (bitsOf [0x01#8, 0#8, 0x15#8] ++ [true])) quiet)).port.result.payload = [4#8, 3#8] ∧
      (after (exec (ofLevels (bitsOf [0x01#8, 0#8, 0x15#8, 0#8])) quiet)).port.result.payload = [4#8, 4#8] ∧
      framePayload .long 255 = [4#8, 255#8] ∧ framePayload .long 256 = [4#8, 255#8] ∧
      (after (exec (.unknownCommand 0xFF#8 [1#8]) (loaded true))).port =
        { (loaded true).port with
          result := { command := 0xFF#8, result := .unknown, payload := [] }, sent := some (List.replicate 4 0xFF#8) } ∧
      (after (exec (ofLevels (bitsOf [0x01#8, 0#8, 0x15#8, 0xFF#8])) quiet)).port.result.payload = [3#8, 4#8] := by
  decide +kernel

/-- FramesEnd: the levels of a read frame and of whole command frames, with an assigned code and with another; the one byte
0x01 is seven low levels and a high one. -/
theorem test_framesTaken :
    bitsOf [0x01#8] = List.replicate 7 false ++ [true] ∧
      levelsOf (BitVec.ofBoolListBE (bitsOf [0x01#8, 0x80#8])) = bitsOf [0x01#8, 0x80#8] ∧
      answers (exec (ofLevels (bitsOf [0x02#8, 0#8, 0x2A#8, 7#8, 7#8] ++ [true])) quiet)
        (after (exec (.resultRead [] 2) quiet)) = true ∧
      answers (exec (ofLevels (bitsOf (frameBytes 0x12#8 [7#8]))) quiet) (after (exec (.unmapSoft [7#8]) quiet)) =
        true ∧
      answers (exec (ofLevels (bitsOf (frameBytes 0xFF#8 [7#8]))) quiet)
        (after (exec (.unknownCommand 0xFF#8 [7#8]) quiet)) = true := by
  decide +kernel

/-- FramesEnd: MCS_N was low at the rise of PWR_OK, so the next rise of MCS_N ends no frame, and the one after it does. -/
theorem test_noFrameOpen :
    (let s := after (exec (.powerOn ⟨1#2, false⟩ true false) State.reset);
      let s1 := after (exec (.getStatus ⟨[], []⟩) s);
      (s.pwrOk = true ∧ s.port.mcs = .lowNoFrame ∧ s.port.mso = .highZ) ∧
        answers (exec (ofLevels []) s) { s with port := { s.port with mcs := .high } } = true ∧
        answers (.next s1) { s with port := { s.port with mcs := .high } } = true ∧ s1.port.sent = none ∧
        (after (exec (.getStatus ⟨[], []⟩) s1)).port.sent = some (List.replicate 3 0xFF#8)) := by decide +kernel

/-- CommonChecks and RefusalChangesNothing: NOT_READY in LOADING, a wrong length in READY, for every command. -/
theorem test_commonChecks :
    ((loaded true).pwrOk = true ∧ (loaded true).fuse.part = .loading ∧ quiet.fuse.part = .ready) ∧
      (Command.all.filter fun c => c != .getStatus).all
        (fun c => answers (exec (c.instr [0#8]) (loaded true)) ((loaded true).answered c 1 .notReady [])) = true ∧
      Command.all.all
        (fun c => answers (exec (c.instr (List.replicate 5 0#8)) quiet) (quiet.answered c 5 .range [])) = true := by
  decide +kernel

/-- StatusAndResultRead: GET_STATUS in READY and in LOADING, and the bytes of a read frame cut short and run on. -/
theorem test_statusAndRead :
    (after (exec (.getStatus ⟨[], []⟩) (copying 2 none))).port.result.payload =
        [1, 0, 0, 0x13, 0x88, 1, 127, 1, 0, 0, 0, 0, 1, 0, 0x13, 0x88, 2, 1, 0, 0, 0, 0, 0, 0, 0, 0, 0, 0, 0, 0, 0, 0,
          0].map (BitVec.ofNat 8 ·) ∧
      (after (exec (.getStatus ⟨[], []⟩) exampleLoaded)).port.result.payload =
        [0, 0, 0, 0, 0, 1, 128, 0, 0, 0, 0, 0, 0, 0, 0, 0, 0, 0, 0, 0, 0, 0, 0, 0, 0, 0, 9, 0, 0, 0, 0, 0, 0].map
          (BitVec.ofNat 8 ·) ∧
      (after (exec (.getStatus ⟨[], []⟩) State.reset)).port.result.payload.drop 25 =
        [0, 0xFF, 0, 0, 0, 0, 0, 0].map (BitVec.ofNat 8 ·) ∧
      (after (exec (.resultRead [] 2) quiet)).port.sent = some [0xFF#8, 0xFF#8, 0xFF#8, 0x00#8, 0x09#8] ∧
      (after (exec (.resultRead [] 6) quiet)).port.sent =
        some [0xFF#8, 0xFF#8, 0xFF#8, 0x00#8, 0x09#8, 0x00#8, crc8 [0x00#8, 0x09#8, 0x00#8], 0xFF#8, 0xFF#8] := by
  decide +kernel

/-- StatusAndResultRead: a commit taken together with GET_STATUS appears in the migration state but not yet in the counts, the
example of R187, or in both; READY taken together; a fall of PRST_N that waits later does not. -/
theorem test_straddle :
    (let s := { finishing with pending := [.commit, .prstNFall] };
      let payload := fun units => (after (exec (.getStatus ⟨[], units⟩) s)).port.result.payload;
      (after (exec .commit s)).clock.now = s.clock.now ∧
        (payload [.migration]).take 13 = [1, 0, 0, 0x13, 0x88, 1, 126, 1, 0, 1, 0, 0, 0].map (BitVec.ofNat 8 ·) ∧
        (payload [.migration, .map, .pin]).take 13 =
          [1, 0, 0, 0x13, 0x88, 1, 126, 0, 1, 0, 1, 0, 0].map (BitVec.ofNat 8 ·) ∧
        (payload []).take 13 = [1, 0, 0, 0x13, 0x88, 1, 126, 1, 0, 1, 0, 0, 2].map (BitVec.ofNat 8 ·) ∧
        (after (exec (.getStatus ⟨[], [.migration]⟩) s)).pending = s.pending) ∧
      (after (exec (.getStatus ⟨[], [.fuse]⟩) { loaded true with pending := [.ready] })).port.result.payload.take 6 =
        [1#8, 0#8, 0#8, 0#8, 0#8, 1#8] := by decide +kernel

/-- ParamCommands: a value out of range and one in range, DECAY_PERIOD with and without an expiry due, and PATROL_GAP in each
patrol state. -/
theorem test_params :
    (Param.ofId 12 = none ∧ answers (exec (.getParam [12#8]) quiet) (quiet.answered .getParam 1 .range []) = true) ∧
      answers (exec (.getParam [9#8]) quiet) (quiet.answered .getParam 1 .ok [9#8, 0x07#8, 0xD0#8]) = true ∧
      answers (exec (.setParam [0#8, 0#8, 1#8]) quiet) (quiet.answered .setParam 3 .range []) = true ∧
      answers (exec (.setParam [1#8, 0x01#8, 0x2C#8]) quiet) (quiet.answered .setParam 3 .range []) = true ∧
      answers (exec (.setParam [1#8, 0#8, 12#8]) quiet)
        ((tuned quiet fun p => { p with ceLimit := 12 }).answered .setParam 3 .ok [1#8, 0#8, 24#8, 0#8, 12#8]) = true ∧
      (after (exec (.setParam [6#8, 0x02#8, 0x58#8])
        { quiet with watch := { quiet.watch with decayCount := 7 } })).watch = quiet.watch ∧
      (let s := suspecting { quiet with watch := { quiet.watch with decayDue := true } } (suspect 5000 9 0);
        (after (exec (.setParam [6#8, 0#8, 0#8]) s)).watch = (suspecting quiet (suspect 5000 4 0)).watch) ∧
      ([PatrolState.off, .gap 5, .seeking, .offered 1 2, .reading 1 2 3#8 4].map fun x =>
          (after (exec (.setParam [7#8, 0#8, 0#8]) (patrolling x 1 2))).patrol.state) =
        [.off, .off, .off, .off, .reading 1 2 3#8 4] ∧
      ([PatrolState.off, .gap 5, .seeking, .offered 1 2, .reading 1 2 3#8 4].map fun x =>
          (after (exec (.setParam [7#8, 0#8, 9#8]) (patrolling x 1 2))).patrol.state) =
        [.off, .gap 0, .seeking, .offered 1 2, .reading 1 2 3#8 4] ∧
      (after (exec (.setParam [7#8, 0#8, 9#8])
          (tuned (patrolling .off 1 2) fun p => { p with patrolGap := 0 }))).patrol.state = .gap 0 := by decide +kernel

/-- ParameterRanges at the ends of each range. -/
theorem test_ranges :
    (Param.ceLimit.inRange 0 = false ∧ Param.ceLimit.inRange 1 = true ∧ Param.ueLimit.inRange 255 = true ∧
        Param.ueLimit.inRange 256 = false) ∧
      (Param.bgShare.inRange 64 = true ∧ Param.bgShare.inRange 65 = false ∧ Param.respTimeout.inRange 15 = false ∧
        Param.respTimeout.inRange 16 = true) ∧
      (Param.alertKinds.inRange 32767 = true ∧ Param.alertKinds.inRange 32768 = false ∧
        Param.retryLimit.inRange 4 = false ∧ Param.rearmMode.inRange 2 = false ∧ Param.ceAction.inRange 4 = false) := by
  decide +kernel

/-- FuseRecordRoundTrip at the ends of the fields. -/
theorem test_fuseRoundTrip :
    classifySlot (FuseRecord.map 1048575 127).word = .valid ∧
      fuseRecordOf (FuseRecord.map 1048575 127).word = .map 1048575 127 ∧
      classifySlot ((FuseRecord.map 0 0).word &&& 0x7FFFFFFFFF#40) = .spoiled (.load .torn) := by decide +kernel

/-- FrameRoundTrip with 12 argument bytes, and cut short. -/
theorem test_frameRoundTrip :
    frameOf (frameBytes 0xFF#8 (List.replicate 12 0x5A#8)) false = .command 0xFF#8 (List.replicate 12 0x5A#8) ∧
      frameOf ((frameBytes 0xFF#8 (List.replicate 12 0x5A#8)).take 14) true = .malformed .short := by decide +kernel

/-! ### The laws' witnesses -/

/-- Records of the laws: the drive of ALERT_N, and sequence numbers across the wrap. -/
theorem test_recordLaws :
    AlertLaw (holding [stored 5 true] 6) ∧ QueueLaw (holding [stored 65535 false, stored 0 true] 1) := by
  unfold AlertLaw QueueLaw
  decide +kernel

/-- The laws of suspect table, decay timer, arbiter, links, credits and retire queue, each in a state with something to hold. -/
theorem test_unitLaws :
    SuspectLaw (fullTable true) ∧ DecayLaw { quiet with watch := { quiet.watch with decayCount := 59999 } } ∧
      DecayLaw { quiet with watch := { quiet.watch with decayDue := true } } ∧ TagLaw dualState ∧ LinkLaw quiet ∧
      CreditLaw (withSlot quiet (ask .read)) ∧ RetireLaw (copying 2 none) := by
  unfold SuspectLaw DecayLaw TagLaw LinkLaw CreditLaw RetireLaw
  decide +kernel

/-- The slots of the quiet part are lawful: it has none in use. -/
theorem quiet_slots_lawful : ∀ x ∈ quiet.req.slots, ∀ y ∈ x, y.lawful := by
  rintro x hx y rfl
  exact absurd hx (quiet_no_slot y)

/-- The law of tracker, relay queue, hold buffer and downstream table. -/
theorem test_trackerLaw : TrackerLaw quiet := by
  have length : quiet.req.slots.length = 64 := by decide +kernel
  have idle : (∀ k < 64, quiet.slotIn k .queued = false) ∧ ∀ k < 64, quiet.slotIn k .held = false := by decide +kernel
  have queues : quiet.req.relay = [] ∧ quiet.req.hold = [] ∧ quiet.arb.outstanding = [] := by decide +kernel
  have lawful := quiet_slots_lawful
  simp only [Option.mem_def] at lawful
  simpa [TrackerLaw, length, queues] using And.intro idle.1 (And.intro idle.2 lawful)

/-- The context of the copying part agrees with its table. -/
theorem copying_agrees : (copying 2 none).contextAgrees := by
  unfold State.contextAgrees State.onlyReserved
  change 2 < 64 ∧ 5000 < (copying 2 none).limit ∧ 3 < 128 ∧ 5000 = (copying 2 none).translate 5000 ∧
    entryAt (copying 2 none).table 3 = .reserved 5000 ∧
      ∀ j < 128, (entryAt (copying 2 none).table j).isReserved = true → j = 3
  decide +kernel

/-- The law of remap table and migration context. -/
theorem test_mapLaw : MapLaw (copying 2 none) := by
  have table : (copying 2 none).table.length = 128 ∧ ((copying 2 none).table.filterMap Entry.serves?).Nodup ∧
      (∀ e ∈ (copying 2 none).table, ∀ l ∈ e.l?, l < (copying 2 none).limit) ∧
      ∀ r ∈ (copying 2 none).mig.waiting, r.l < (copying 2 none).limit := by decide +kernel
  exact ⟨table.1, table.2.1, table.2.2.1, table.2.2.2, copying_agrees⟩

/-- The law of the fuse unit, a record being verified at the last slot. -/
theorem test_fuseLaw : FuseLaw (programming (.verifying 31 (.map 5000 127) 5)) := by
  have timer : (Programmer.verifying 31 (.map 5000 127) 5).inTime := show 5 ≤ 200 by decide
  unfold FuseLaw State.programmerAtPointer
  simp only [show (programming (.verifying 31 (.map 5000 127) 5)).fuse.programmer = .verifying 31 (.map 5000 127) 5 from rfl,
    timer, true_and]
  decide +kernel

/-- The laws of the patrol unit and of the parameters. -/
theorem test_patrolAndParamsLaws : PatrolLaw (patrolling (.offered 7 3) 7 3) ∧ ParamsLaw (copying 2 none) := by
  have agrees : (patrolling (.offered 7 3) 7 3).patrolAgrees := ⟨rfl, rfl⟩
  have context : (copying 2 none).mig.context = .copying move 2 none := rfl
  unfold PatrolLaw ParamsLaw
  simp only [agrees, context, and_true]
  decide +kernel

end Sys2Proof.Tests
end

section
/-! The classes of the physical blocks (R8), and the two commands that change one entry of the remap table, UNMAP_SOFT (R22)
and BAN_SPARE (R23): each owning rule said once, case by case, then the obligations. -/

namespace Sys2Proof.Machine

/-! ### The class of a physical block (R8) -/

/-- An entry serves L exactly when it is SOFT or HARD and names L (R6). -/
theorem Entry.serves?_eq_some {e : Entry} {l : Nat} :
    e.serves? = some l ↔ (∃ pending, e = .soft l pending) ∨ ∃ slot, e = .hard l slot := by
  cases e <;> simp [Entry.serves?]

/-- One of the two searches of R6 finds a spare for L exactly when some entry serves L. -/
theorem softFor_or_hardFor_isSome {t : List Entry} {l : Nat} :
    ((softFor t l).isSome || (hardFor t l).isSome) = true ↔ ∃ e ∈ t, e.serves? = some l := by
  rw [Bool.or_eq_true, Option.isSome_iff_ne_none, Option.isSome_iff_ne_none, Ne, Ne, softFor_eq_none, hardFor_eq_none]
  push Not
  constructor
  · rintro (⟨c, hm⟩ | ⟨c, hm⟩)
    · exact ⟨_, hm, rfl⟩
    · exact ⟨_, hm, rfl⟩
  · rintro ⟨e, hm, hs⟩
    obtain ⟨c, rfl⟩ | ⟨c, rfl⟩ := Entry.serves?_eq_some.mp hs
    · exact Or.inl ⟨c, hm⟩
    · exact Or.inr ⟨c, hm⟩

/-- A home block is in use while no entry serves its logical block. -/
theorem State.classify_home_inUse {s : State} {p : Nat} (hp : p < s.limit) (h : ∀ e ∈ s.table, e.serves? ≠ some p) :
    s.classify p = .homeInUse p := by
  have unserved : ¬((softFor s.table p).isSome || (hardFor s.table p).isSome) = true := fun found =>
    have ⟨e, hm, hs⟩ := softFor_or_hardFor_isSome.mp found
    h e hm hs
  rw [State.classify, Machine.classify, if_pos hp, if_neg unserved]

/-- A home block is remapped while some entry serves its logical block. -/
theorem State.classify_home_remapped {s : State} {p : Nat} (hp : p < s.limit) (h : ∃ e ∈ s.table, e.serves? = some p) :
    s.classify p = .homeRemapped := by
  rw [State.classify, Machine.classify, if_pos hp, if_pos (softFor_or_hardFor_isSome.mpr h)]

/-- The class of spare k by the state of its entry: the spares' rows of R8's table. -/
def Entry.classOfSpare (k : Nat) : Entry → BlockClass
  | .free => .freeSpare k
  | .reserved _ => .migrationTarget k
  | .soft l _ => .servingSpare k l
  | .hard l _ => .servingSpare k l
  | .retired _ _ _ _ => .retiredSpare k

/-- A spare has the class its own entry gives it; no other entry matters. -/
theorem State.classify_spare (s : State) (k : Nat) : s.classify (s.limit + k) = (entryAt s.table k).classOfSpare k := by
  have home : ¬s.limit + k < s.limit := by omega
  rw [State.classify, Machine.classify, if_neg home, Nat.add_sub_cancel_left]
  cases entryAt s.table k <;> rfl

/-- A spare whose entry serves L is the serving spare of L. -/
theorem Entry.classOfSpare_of_serves {e : Entry} {l : Nat} (h : e.serves? = some l) (k : Nat) :
    e.classOfSpare k = .servingSpare k l := by
  obtain ⟨c, rfl⟩ | ⟨c, rfl⟩ := Entry.serves?_eq_some.mp h <;> rfl

/-- Settles O14: below the logical limit the entries that serve the block decide, from there on the spare's own entry. -/
theorem physicalBlockClasses : Obligations.PhysicalBlockClasses := by
  intro s p
  refine ⟨State.classify_home_inUse, State.classify_home_remapped, ?free, ?reserved, ?serving, ?retired, ?served⟩
  case free =>
    rintro k rfl he
    rw [State.classify_spare, he]
    rfl
  case reserved =>
    rintro k l rfl he
    rw [State.classify_spare, he]
    rfl
  case serving =>
    rintro k l rfl he
    rw [State.classify_spare, Entry.classOfSpare_of_serves he]
  case retired =>
    rintro k l slot banned pending rfl he
    rw [State.classify_spare, he]
    rfl
  case served => exact ⟨rfl, rfl, fun _ _ => ⟨rfl, rfl, rfl, rfl⟩⟩

/-! ### What UNMAP_SOFT and BAN_SPARE share (R182, R183) -/

/-- A byte is sent back as it was received (R183). -/
@[simp] theorem be1_toNat (b : Byte) : be1 b.toNat = [b] := by
  simp [be1, byteOf]

/-- A logical block is held exactly when the active migration or a waiting request names it (R66). -/
theorem MigrationUnit.holds_iff {m : MigrationUnit} {l : Nat} : m.holds l = true ↔ l ∈ m.blocks := by
  simp [MigrationUnit.holds, MigrationUnit.isWaiting, MigrationUnit.blocks, or_comm]

/-- The check of a spare index passes below 128 (R3). -/
theorem not_spares_le {k : Nat} (h : k < 128) : ¬Config.spares ≤ k := Nat.not_le.mpr h

/-- A part that accepts commands answers one with its single argument byte by the owning rule (R182). -/
theorem State.accepts.command_oneByte {s : State} (h : s.accepts) {c : Command} (hc : c.lengths = [1]) (b : Byte)
    (run : State → Reply) :
    command c [b] s run = (run s).after.answered c 1 (run s).result (run s).payload := by
  obtain ⟨powered, mcsHigh, ready⟩ := h
  exact command_runs ⟨powered, mcsHigh⟩ (Or.inl ready) (by simp [hc])

/-! ### UNMAP_SOFT (R22) -/

/-- A spare index beyond the pool is refused first. -/
theorem unmapSoftReply_range {s : State} {k : Nat} (h : 128 ≤ k) : unmapSoftReply k s = s.refuse .range := if_pos h

/-- A spare that is not SOFT has nothing to unmap. -/
theorem unmapSoftReply_notSoft {s : State} {k : Nat} (h : k < 128) (he : ∀ l p, entryAt s.table k ≠ .soft l p) :
    unmapSoftReply k s = s.refuse .state := by
  rw [unmapSoftReply, if_neg (not_spares_le h)]
  cases hk : entryAt s.table k with
  | soft l p => exact absurd hk (he l p)
  | free | reserved | hard | retired => rfl

/-- A SOFT entry stays while a commit of it is pending or its L is held. -/
theorem unmapSoftReply_busy {s : State} {k l : Nat} {p : Bool} (h : k < 128) (he : entryAt s.table k = .soft l p)
    (hb : p = true ∨ l ∈ s.mig.blocks) : unmapSoftReply k s = s.refuse .busy := by
  rw [unmapSoftReply, if_neg (not_spares_le h), he]
  cases p with
  | true => rfl
  | false => exact if_pos (MigrationUnit.holds_iff.mpr (hb.resolve_left Bool.false_ne_true))

/-- Any other SOFT entry goes to FREE. -/
theorem unmapSoftReply_ok {s : State} {k l : Nat} (h : k < 128) (he : entryAt s.table k = .soft l false)
    (hl : l ∉ s.mig.blocks) :
    unmapSoftReply k s = { result := .ok, payload := be1 k ++ be3 l, after := s.setEntry k .free } := by
  rw [unmapSoftReply, if_neg (not_spares_le h), he]
  exact if_neg (mt MigrationUnit.holds_iff.mp hl)

/-- UNMAP_SOFT's next state carries the answer of its owning rule. -/
theorem exec_unmapSoft {b : Byte} {s : State} {r : Reply} (h : s.accepts) (hr : unmapSoftReply b.toNat s = r) :
    exec (.unmapSoft [b]) s = .next (r.after.answered .unmapSoft 1 r.result r.payload) := by
  change Host.Outcome.next (command .unmapSoft [b] s (unmapSoftReply (ofBe [b]))) = _
  rw [ofBe_singleton, h.command_oneByte rfl, hr]

/-! ### BAN_SPARE (R23) -/

/-- A spare index beyond the pool is refused first. -/
theorem banSpareReply_range {s : State} {k : Nat} (h : 128 ≤ k) : banSpareReply k s = s.refuse .range := if_pos h

/-- A spare already withdrawn is not withdrawn again. -/
theorem banSpareReply_retired {s : State} {k : Nat} {l slot : Option Nat} {banned p : Bool} (h : k < 128)
    (he : entryAt s.table k = .retired l slot banned p) : banSpareReply k s = s.refuse .already := by
  rw [banSpareReply, if_neg (not_spares_le h), he]

/-- A spare in use (RESERVED, SOFT or HARD) is not withdrawn. -/
theorem banSpareReply_inUse {s : State} {k : Nat} (h : k < 128) (hf : entryAt s.table k ≠ .free)
    (hr : ∀ l slot banned p, entryAt s.table k ≠ .retired l slot banned p) :
    banSpareReply k s = s.refuse .state := by
  rw [banSpareReply, if_neg (not_spares_le h)]
  cases hk : entryAt s.table k with
  | free => exact absurd hk hf
  | retired l slot banned p => exact absurd hk (hr l slot banned p)
  | reserved | soft | hard => rfl

/-- A FREE spare is withdrawn: it last served no block, and no fuse record names it. -/
theorem banSpareReply_ok {s : State} {k : Nat} (h : k < 128) (he : entryAt s.table k = .free) :
    banSpareReply k s =
      { result := .ok, payload := be1 k, after := s.setEntry k (.retired none none false false) } := by
  rw [banSpareReply, if_neg (not_spares_le h), he]

/-- BAN_SPARE's next state carries the answer of its owning rule. -/
theorem exec_banSpare {b : Byte} {s : State} {r : Reply} (h : s.accepts) (hr : banSpareReply b.toNat s = r) :
    exec (.banSpare [b]) s = .next (r.after.answered .banSpare 1 r.result r.payload) := by
  change Host.Outcome.next (command .banSpare [b] s (banSpareReply (ofBe [b]))) = _
  rw [ofBe_singleton, h.command_oneByte rfl, hr]

/-- Settles O46: each clause is one case of the owning rule, carried into the next state by `exec_unmapSoft` or
`exec_banSpare`. -/
theorem unmapAndBanCommands : Obligations.UnmapAndBanCommands := by
  intro b s h
  refine ⟨fun hb => ⟨exec_unmapSoft h (unmapSoftReply_range hb), exec_banSpare h (banSpareReply_range hb)⟩,
    fun hb => ⟨?notSoft, ?softBusy, ?softFreed, ?retired, ?inUse, ?freeBanned⟩⟩
  case notSoft => exact fun he => exec_unmapSoft h (unmapSoftReply_notSoft hb he)
  case softBusy => exact fun l p he hc => exec_unmapSoft h (unmapSoftReply_busy hb he hc)
  case softFreed =>
    intro l he hl
    have answer := exec_unmapSoft h (unmapSoftReply_ok hb he hl)
    rwa [be1_toNat] at answer
  case retired => exact fun l slot banned p he => exec_banSpare h (banSpareReply_retired hb he)
  case inUse => exact fun hf hr => exec_banSpare h (banSpareReply_inUse hb hf hr)
  case freeBanned =>
    intro he
    have answer := exec_banSpare h (banSpareReply_ok hb he)
    rwa [be1_toNat] at answer

end Sys2Proof.Machine
end

section
/-! The record unit taking a handed record (R137 to R141, R145): which record may be taken, what storing and dropping leave, and
the two outcomes of TAKE_RECORD. -/

namespace Sys2Proof.Machine

/-! ### The order of taking (R108, R137) -/

/-- A record goes before another when one unit produced both, or one firing raised both. -/
theorem takenBefore_eq_true {a b : Handed} :
    takenBefore a b = true ↔ a.producer = b.producer ∨ (a.firing ≠ none ∧ a.firing = b.firing) := by
  simp [takenBefore, ofOneFiring, Option.isSome_iff_ne_none]

/-- A record need not go before another of a different unit that does not share its firing. -/
theorem takenBefore_eq_false {a b : Handed} :
    takenBefore a b = false ↔ a.producer ≠ b.producer ∧ (a.firing = none ∨ a.firing ≠ b.firing) := by
  rw [← Bool.not_eq_true, takenBefore_eq_true, not_or, not_and_or, not_not]

/-- A handed record may be taken exactly when no record handed earlier goes before it. -/
theorem mayTake_eq_true {hs : List Handed} {k : Nat} {h : Handed} (hk : hs[k]? = some h) :
    mayTake hs k = true ↔ ∀ (j : Nat) (a : Handed), j < k → hs[j]? = some a → takenBefore a h = false := by
  have earlier : ∀ a, a ∈ hs.take k ↔ ∃ j, j < k ∧ hs[j]? = some a := fun a => by
    simp only [List.mem_iff_getElem?, List.getElem?_take, Option.ite_none_right_eq_some]
  simp only [mayTake, hk, List.all_eq_true, Bool.not_eq_true', earlier]
  exact ⟨fun all j a hj ha => all a ⟨j, hj, ha⟩, fun all a ⟨j, hj, ha⟩ => all j a hj ha⟩

/-- A handed record must wait while one handed earlier goes before it. -/
theorem mayTake_eq_false {hs : List Handed} {k j : Nat} {h a : Handed} (hk : hs[k]? = some h) (hj : j < k)
    (ha : hs[j]? = some a) (before : takenBefore a h = true) : mayTake hs k = false := by
  rw [← Bool.not_eq_true, mayTake_eq_true hk]
  intro free
  exact Bool.false_ne_true ((free j a hj ha).symm.trans before)

/-! ### Alert flag and ALERT_N (R139, R145) -/

/-- The alert flag called for: the firing action decides for a limit record, ALERT_KINDS for every other kind (R139). -/
theorem alertCalled_eq {kinds : BitVec 16} {h : Handed} {called : Bool}
    (limit : h.body.isLimit = true → (called = true ↔ h.action = some .alert))
    (other : h.body.isLimit = false → called = kinds.getLsbD h.body.kindCode) : alertCalled kinds h = called := by
  cases hb : h.body.isLimit with
  | true => rw [alertCalled, if_pos hb, Bool.eq_iff_iff, beq_iff_eq, limit hb]
  | false => rw [alertCalled, hb, if_neg Bool.false_ne_true, other hb]

/-- ALERT_N is low exactly while an alerting record is held or has been dropped (R145). -/
theorem alertDrive_eq_true {queue : List FaultRecord} {missed : Bool} :
    alertDrive queue missed = true ↔ (∃ r ∈ queue, r.alert = true) ∨ missed = true := by
  rw [alertDrive, Bool.or_eq_true, List.any_eq_true]

/-! ### Storing and dropping (R138, R140) -/

/-- The queue is full from 64 records on (R135). -/
theorem RecordUnit.isFull_eq_true {r : RecordUnit} : r.isFull = true ↔ 64 ≤ r.queue.length := decide_eq_true_iff

section Taking

variable {r : RecordUnit} (kinds : BitVec 16) (epoch : Epoch) (h : Handed)

/-- With room the record is stored. -/
theorem RecordUnit.take_of_room (room : r.queue.length < 64) : r.take kinds epoch h = r.store kinds epoch h :=
  if_neg (mt RecordUnit.isFull_eq_true.mp (Nat.not_le.mpr room))

/-- At a full queue the record is dropped. -/
theorem RecordUnit.take_of_full (full : 64 ≤ r.queue.length) : r.take kinds epoch h = r.drop kinds h :=
  if_pos (RecordUnit.isFull_eq_true.mpr full)

/-- What holds of the unit after a store and after a drop holds of it after taking a record. -/
theorem RecordUnit.take_induction {P : RecordUnit → Prop} (stored : P (r.store kinds epoch h))
    (dropped : P (r.drop kinds h)) : P (r.take kinds epoch h) := by
  rcases Nat.lt_or_ge r.queue.length 64 with room | full
  · rwa [RecordUnit.take_of_room kinds epoch h room]
  · rwa [RecordUnit.take_of_full kinds epoch h full]

/-- Stored or dropped, a taken record leaves the others handed as they are. -/
@[simp] theorem RecordUnit.take_handed : (r.take kinds epoch h).handed = r.handed :=
  RecordUnit.take_induction kinds epoch h (P := fun u => u.handed = r.handed) rfl rfl

/-- Stored or dropped, taking a record sets ALERT_N from the queue and the alert-missed flag as they then stand (R145). -/
theorem RecordUnit.take_alertLow :
    (r.take kinds epoch h).alertLow =
      alertDrive (r.take kinds epoch h).queue (r.take kinds epoch h).alertMissed :=
  RecordUnit.take_induction kinds epoch h (P := fun u => u.alertLow = alertDrive u.queue u.alertMissed) rfl rfl

end Taking

/-! ### TAKE_RECORD (R137, R138, R140) -/

section TakeRecord

variable {k : Nat} {h : Handed} {s : State}

/-- The record unit as the handed record at position k leaves those handed. -/
def RecordUnit.leaving (r : RecordUnit) (k : Nat) : RecordUnit := { r with handed := r.handed.eraseIdx k }

/-- The record unit once it has taken record `h` from position k of the handed records. -/
def State.recsTaking (s : State) (k : Nat) (h : Handed) : RecordUnit :=
  (s.recs.leaving k).take s.params.alertKinds s.clock.epoch h

/-- With room TAKE_RECORD stores. -/
theorem State.recsTaking_of_room (room : s.recs.queue.length < 64) :
    s.recsTaking k h = (s.recs.leaving k).store s.params.alertKinds s.clock.epoch h :=
  RecordUnit.take_of_room s.params.alertKinds s.clock.epoch h room

/-- At a full queue TAKE_RECORD drops. -/
theorem State.recsTaking_of_full (full : 64 ≤ s.recs.queue.length) :
    s.recsTaking k h = (s.recs.leaving k).drop s.params.alertKinds h :=
  RecordUnit.take_of_full s.params.alertKinds s.clock.epoch h full

/-- A handed record that may be taken is taken, and nothing outside the record unit changes. -/
theorem exec_takeRecord_of_mayTake (hp : s.pwrOk = true) (hk : s.recs.handed[k]? = some h)
    (may : mayTake s.recs.handed k = true) :
    exec (.takeRecord k) s = .next { s with recs := s.recsTaking k h } := by
  change Host.Outcome.next (takeRecordEffect k s) = _
  simp only [takeRecordEffect, powered_of_high hp, hk, if_pos may, State.recsTaking, RecordUnit.leaving]

/-- A handed record that may not be taken yet stays handed, and nothing changes. -/
theorem exec_takeRecord_of_not_mayTake (hp : s.pwrOk = true) (hk : s.recs.handed[k]? = some h)
    (wait : mayTake s.recs.handed k = false) : exec (.takeRecord k) s = .next s := by
  change Host.Outcome.next (takeRecordEffect k s) = _
  simp only [takeRecordEffect, powered_of_high hp, hk, wait, if_neg Bool.false_ne_true]

end TakeRecord

/-- Settles O38: `mayTake` decides between the two outcomes; a record taken is stored by `State.recsTaking_of_room` or dropped
by `State.recsTaking_of_full`. -/
theorem recordStoredOrDropped : Obligations.RecordStoredOrDropped := by
  intro k h called s hp hk limit other
  have hcalled : alertCalled s.params.alertKinds h = called := alertCalled_eq limit other
  refine ⟨fun first => ?taken, fun ⟨j, a, hj, ha, before⟩ => ?waits⟩
  case waits =>
    exact exec_takeRecord_of_not_mayTake hp hk (mayTake_eq_false hk hj ha (takenBefore_eq_true.mpr before))
  case taken =>
    have may : mayTake s.recs.handed k = true :=
      (mayTake_eq_true hk).mpr fun j a hj ha => takenBefore_eq_false.mpr (first j a hj ha)
    refine ⟨_, exec_takeRecord_of_mayTake hp hk may, fun room => ?stored, fun full => ?dropped, ?alert,
      RecordUnit.take_handed .., rfl⟩
    case stored =>
      simp only [State.recsTaking_of_room room, ← hcalled]
      exact ⟨rfl, rfl, rfl, rfl⟩
    case dropped =>
      simp only [State.recsTaking_of_full full, ← hcalled]
      exact ⟨rfl, rfl, rfl, rfl⟩
    case alert => exact (Bool.eq_iff_iff.mp (RecordUnit.take_alertLow ..)).trans alertDrive_eq_true

end Sys2Proof.Machine
end

section
/-! Reading and acknowledging the held records (R142, R143): each owning rule said once, case by case, then the two commands. -/

namespace Sys2Proof.Machine

/-! ### What READ_FAULTS and ACK_FAULTS share (R182, R183) -/

/-- A part that accepts commands answers one whose argument length it takes by the owning rule (R182). -/
theorem State.accepts.command_ofLength {s : State} (h : s.accepts) {c : Command} {args : List Byte} {n : Nat}
    (hargs : args.length = n) (hn : n ∈ c.lengths) (run : State → Reply) :
    command c args s run = (run s).after.answered c n (run s).result (run s).payload := by
  obtain ⟨powered, mcsHigh, ready⟩ := h
  subst hargs
  exact command_runs ⟨powered, mcsHigh⟩ (Or.inl ready) hn

/-! ### READ_FAULTS (R142) -/

section ReadFaults

variable {i n : Nat} {s : State}

/-- A position beyond 63, or a number of records outside 1..3, is refused first. -/
theorem readFaultsReply_range (h : 63 < i ∨ n < 1 ∨ 3 < n) : readFaultsReply i n s = s.refuse .range := if_pos h

/-- Arguments in their ranges pass the first check. -/
theorem readFaults_inRange (hi : i ≤ 63) (hlow : 1 ≤ n) (hhigh : n ≤ 3) : ¬(63 < i ∨ n < 1 ∨ 3 < n) := by
  omega

/-- A position that holds no record has nothing to read. -/
theorem readFaultsReply_none (hi : i ≤ 63) (hlow : 1 ≤ n) (hhigh : n ≤ 3) (empty : s.recs.queue.length ≤ i) :
    readFaultsReply i n s = s.refuse .none := by
  rw [readFaultsReply, if_neg (readFaults_inRange hi hlow hhigh), if_pos empty]

/-- From a position that holds a record up to n records are read, and the state stays as it is. -/
theorem readFaultsReply_ok (hi : i ≤ 63) (hlow : 1 ≤ n) (hhigh : n ≤ 3) (held : i < s.recs.queue.length) :
    readFaultsReply i n s = s.report (((s.recs.queue.drop i).take n).flatMap FaultRecord.bytes) := by
  rw [readFaultsReply, if_neg (readFaults_inRange hi hlow hhigh), if_neg (Nat.not_le.mpr held)]

end ReadFaults

/-- READ_FAULTS's next state carries the answer of its owning rule. -/
theorem exec_readFaults {i n : Byte} {s : State} {r : Reply} (h : s.accepts)
    (hr : readFaultsReply i.toNat n.toNat s = r) :
    exec (.readFaults [i, n]) s = .next (r.after.answered .readFaults 2 r.result r.payload) := by
  change Host.Outcome.next (command .readFaults [i, n] s (readFaultsReply (ofBe [i]) (ofBe [n]))) = _
  rw [ofBe_singleton, ofBe_singleton, h.command_ofLength (n := 2) rfl (List.mem_singleton_self 2), hr]

/-! ### ACK_FAULTS (R143) -/

section AckFaults

variable {seq : Nat} {s : State} {before after : List FaultRecord} {r : FaultRecord}

/-- The record found for a sequence number is the first that carries it. -/
theorem findIdx?_seq_of_split (hr : r.seq.toNat = seq) (first : ∀ b ∈ before, b.seq.toNat ≠ seq) :
    (before ++ r :: after).findIdx? (fun x => x.seq.toNat == seq) = some before.length := by
  have skipped : before.findIdx? (fun x => x.seq.toNat == seq) = none :=
    List.findIdx?_eq_none_iff.mpr fun b hb => beq_false_of_ne (first b hb)
  simp [List.findIdx?_append, List.findIdx?_cons, skipped, hr]

/-- Removing through a record leaves the records after it, with ALERT_N as these and the alert-missed flag call for (R145). -/
theorem RecordUnit.removeThrough_of_split {u : RecordUnit} (hq : u.queue = before ++ r :: after) :
    u.removeThrough before.length = { u with queue := after, alertLow := alertDrive after u.alertMissed } := by
  have rest : u.queue.drop (before.length + 1) = after := by
    rw [hq, ← List.drop_drop, List.drop_left, List.drop_one, List.tail_cons]
  rw [RecordUnit.removeThrough, rest]

/-- A sequence number that no held record carries is not acknowledged. -/
theorem ackFaultsReply_none (absent : ∀ x ∈ s.recs.queue, x.seq.toNat ≠ seq) :
    ackFaultsReply seq s = s.refuse .none := by
  have notFound : s.recs.queue.findIdx? (fun x => x.seq.toNat == seq) = none :=
    List.findIdx?_eq_none_iff.mpr fun x hx => beq_false_of_ne (absent x hx)
  rw [ackFaultsReply, notFound]

/-- The records through the acknowledged one are removed and counted, and those left are counted too. -/
theorem ackFaultsReply_ok (hq : s.recs.queue = before ++ r :: after) (hr : r.seq.toNat = seq)
    (first : ∀ b ∈ before, b.seq.toNat ≠ seq) :
    ackFaultsReply seq s =
      { result := .ok
        payload := be1 (before.length + 1) ++ be1 after.length
        after := { s with
          recs := { s.recs with queue := after, alertLow := alertDrive after s.recs.alertMissed } } } := by
  have found : s.recs.queue.findIdx? (fun x => x.seq.toNat == seq) = some before.length := by
    rw [hq, findIdx?_seq_of_split hr first]
  simp only [ackFaultsReply, found, RecordUnit.removeThrough_of_split hq]

end AckFaults

/-- ACK_FAULTS's next state carries the answer of its owning rule. -/
theorem exec_ackFaults {args : List Byte} {s : State} {r : Reply} (h : s.accepts) (hargs : args.length = 2)
    (hr : ackFaultsReply (ofBe args) s = r) :
    exec (.ackFaults args) s = .next (r.after.answered .ackFaults 2 r.result r.payload) := by
  change Host.Outcome.next (command .ackFaults args s (ackFaultsReply (ofBe args))) = _
  rw [h.command_ofLength hargs (List.mem_singleton_self 2), hr]

/-- Settles O39: each clause is one case of the owning rule, carried into the next state by `exec_readFaults` or
`exec_ackFaults`; ALERT_N after an acknowledgement is `alertDrive` of the records left. -/
theorem faultCommands : Obligations.FaultCommands := by
  refine ⟨fun i n s h => ⟨?range, ?noRecord, ?read⟩, fun args s h hargs => ⟨?unknown, ?acknowledged⟩⟩
  case range => exact fun bad => exec_readFaults h (readFaultsReply_range bad)
  case noRecord => exact fun hi hlow hhigh empty => exec_readFaults h (readFaultsReply_none hi hlow hhigh empty)
  case read => exact fun hi hlow hhigh held => exec_readFaults h (readFaultsReply_ok hi hlow hhigh held)
  case unknown => exact fun absent => exec_ackFaults h hargs (ackFaultsReply_none absent)
  case acknowledged =>
    intro before r after hq hr first
    exact ⟨alertDrive after s.recs.alertMissed, alertDrive_eq_true,
      exec_ackFaults h hargs (ackFaultsReply_ok hq hr first)⟩

end Sys2Proof.Machine
end

section
/-! What one step of the part can do, said once for all the laws: the events a unit takes, the changes a command frame brings,
and the induction that carries a law over a step. -/

namespace Sys2Proof.Machine

/-! ### The events of the units -/

/-- From s the part goes to u by an event that a unit takes while PWR_OK is high: one constructor for each way an event acts. -/
inductive State.Event (s : State) : State → Prop
  | nothing : s.Event s
  | passes (d : Nat) : s.Event (s.passMicroseconds d)
  | ready (loading : s.isReady = false) (capacity : s.fuse.capacity ≠ none) (pointer : s.fuse.appendPtr ≠ none)
      (low : s.prstN = false) :
      s.Event { s with fuse := { s.fuse with part := .ready }, mig := { s.mig with startEvent := true } }
  | readyReleased (loading : s.isReady = false) (capacity : s.fuse.capacity ≠ none) (pointer : s.fuse.appendPtr ≠ none)
      (high : s.prstN = true) :
      s.Event
        (State.release { s with fuse := { s.fuse with part := .ready }, mig := { s.mig with startEvent := true } })
  | fall (high : s.prstN = true) :
      s.Event
        (State.migrationReset
          { s with prstN := false, req := s.req.emptied, arb := s.arb.inReset, patrol := { s.patrol with state := .off } })
  | rise (low : s.prstN = false) (loading : s.isReady = false) : s.Event { s with prstN := true }
  | riseReleased (low : s.prstN = false) (isReady : s.isReady = true) :
      s.Event (State.release { s with prstN := true, mig := { s.mig with startEvent := true } })
  | overrun (m : UpMessage) : s.Event (s.sendUp m)
  | rejected (m n : UpMessage) : s.Event ((s.sendUp m).sendUp n)
  | accepted (k : Nat) (kind : Access) (tag : Tag) (size : Size) (addr : Addr) (beats : List WriteLine) (deadline : Nat)
      (credit : s.req.credits ≠ 0) (free : s.req.freeSlot = some k) :
      s.Event (s.accept k (newSlot kind tag size addr beats deadline))
  | grant (link : s.arb.linkUp = true) : s.Event s.takeGrant
  | response (tag : Tag) (e : OutEntry) (a : Answer) (first : Bool) (link : s.arb.linkUp = true)
      (entry : s.arb.entry? tag = some e) :
      s.Event ((((s.removeTag tag).reportStatuses e a first).route tag e a).writeRemoved e)
  | credits (count : Byte) (link : s.arb.linkUp = true) :
      s.Event { s with arb := { s.arb with credits := min Config.maxDownCredits (s.arb.credits + count.toNat) } }
  | report (k : Nat) (r : StatusReport) (waiting : s.watch.reports[k]? = some r) :
      s.Event (State.takeReport { s with watch := { s.watch with reports := s.watch.reports.eraseIdx k } } r)
  | failure (k : Nat) (r : FailureReport) (waiting : s.mig.failures[k]? = some r) :
      s.Event ((s.setMig { s.mig with failures := s.mig.failures.eraseIdx k }).takeFailure r)
  | startEventSpent : s.Event (s.setMig { s.mig with startEvent := false })
  | started (i : Nat) (r : RetireRequest) (may : s.mayStart = true) (nearest : s.startable = some i)
      (waiting : s.mig.waiting[i]? = some r) : s.Event (s.startRequest i r)
  | claimed (m : Move) (p : Nat) (context : s.mig.context = .copying m p none) (inBlock : p < Config.quads) :
      s.Event (s.setMig { s.mig with context := .copying m p (some .claimed) }).tryRead
  | drained : s.Event s.tryRead
  | committed : s.Event s.tryCommit
  | copyReadTimeout (m : Move) (p : Nat) (c : InFlight)
      (context : s.mig.context = .copying m p (some (.reading (some c)))) :
      s.Event ((s.advanceTo c.deadline).stopMove m (some (.reading (some c))) (.migFailed m.req.l .timeout)).toIdle
  | copyWriteTimeout (m : Move) (p : Nat) (b : List WriteLine) (c : InFlight)
      (context : s.mig.context = .copying m p (some (.writing b (some c)))) :
      s.Event ((s.advanceTo c.deadline).failTarget m (some (.writing b (some c))) .writeTimeout)
  | orphaned (k : Nat) (x : Slot) (slot : s.slot? k = some x) (active : x.state = .active) :
      s.Event
        ((((s.advanceTo x.deadline).sendUp x.timeoutResponse).setSlot k
          (some { x with state := .orphan, answered := true })).hand .request (.respTimeout .request x.outstandingBlock))
  | queuedTimeout (k : Nat) (x : Slot) (slot : s.slot? k = some x) (queued : x.state = .queued) :
      s.Event
        (((((s.advanceTo x.deadline).sendUp x.timeoutResponse).leaveQueues k).freeSlotCredit k
          |>.hand .request (.respTimeout .request (s.blockFor x))).testIfNewHead s.req.relay.head?)
  | heldTimeout (k : Nat) (x : Slot) (slot : s.slot? k = some x) (held : x.state = .held) :
      s.Event
        ((((s.advanceTo x.deadline).sendUp x.timeoutResponse).leaveQueues k).freeSlotCredit k
          |>.hand .request (.respTimeout .request (s.blockFor x)))
  | heldTimeoutUnstalls (k : Nat) (x : Slot) (slot : s.slot? k = some x) (held : x.state = .held) :
      s.Event
        ((((s.advanceTo x.deadline).sendUp x.timeoutResponse).leaveQueues k).freeSlotCredit k
          |>.hand .request (.respTimeout .request (s.blockFor x))).headTested
  | patrolTimeout (b q : Nat) (t : Tag) (deadline : Nat) (reading : s.patrol.state = .reading b q t deadline) :
      s.Event ((s.advanceTo deadline).hand .patrol (.respTimeout .patrol b)).endPatrolRead
  | gapExpired (n : Nat) (gap : s.patrol.state = .gap n) :
      s.Event
        ((s.passMicroseconds (s.params.patrolGap - n)).setPatrol
          { (s.passMicroseconds (s.params.patrolGap - n)).patrol with state := .seeking })
  | offered (seeking : s.patrol.state = .seeking) :
      s.Event (s.setPatrol { s.patrol with state := .offered s.patrol.block s.patrol.quad })
  | skipped (seeking : s.patrol.state = .seeking) :
      s.Event (s.setPatrol { state := .seeking, block := nextBlock s.capacityBlocks s.patrol.block, quad := 0 })
  | decayed (period : s.params.decayPeriod ≠ 0) (due : s.watch.decayDue = true) :
      s.Event { s with watch := s.watch.decay }
  | ticksAndDecayed (d : Nat) (period : s.params.decayPeriod ≠ 0) :
      s.Event { s.passMilliseconds d with watch := (s.passMilliseconds d).watch.decay }
  | recordTaken (k : Nat) (h : Handed) (handed : s.recs.handed[k]? = some h) :
      s.Event { s with recs := s.recsTaking k h }
  | bitReported (slot : Nat) (record : FuseRecord) (timer : Nat) (reported bits burnt : FuseWord)
      (programming : s.fuse.programmer = .programming slot record timer reported) :
      s.Event ((s.setProgrammer (.programming slot record timer bits)).burn slot burnt)
  | markerReported (slot : Nat) (record : FuseRecord) (timer : Nat) (reported burnt : FuseWord)
      (programming : s.fuse.programmer = .programming slot record timer reported) :
      s.Event ((s.setProgrammer (.verifying slot record timer)).burn slot burnt)
  | ticks (d : Nat) : s.Event (s.passMilliseconds d)
  | verified (slot : Nat) (record : FuseRecord) (timer : Nat)
      (verifying : s.fuse.programmer = .verifying slot record timer) : s.Event (s.endVerify slot record)
  | fweChanged (high : Bool) : s.Event { s with fwe := high }

section Effects

variable {s : State}

theorem readyEffect_event (hp : s.pwrOk = true) : s.Event (readyEffect s) := by
  rw [readyEffect, powered_of_high hp]
  split
  · exact .nothing
  next h =>
    simp only [not_or, Bool.not_eq_true] at h
    obtain ⟨loading, capacity, pointer, -⟩ := h
    dsimp only
    split
    next high => exact .readyReleased loading capacity pointer high
    next low => exact .ready loading capacity pointer (Bool.not_eq_true _ ▸ low)

theorem prstFallEffect_event (hp : s.pwrOk = true) : s.Event (prstFallEffect s) := by
  rw [prstFallEffect, powered_of_high hp]
  split
  next high => exact .fall high
  · exact .nothing

theorem prstRiseEffect_event (hp : s.pwrOk = true) : s.Event (prstRiseEffect s) := by
  rw [prstRiseEffect, powered_of_high hp]
  split
  · exact .nothing
  next low =>
    rw [Bool.not_eq_true] at low
    dsimp only
    split
    next isReady => exact .riseReleased low isReady
    next loading => exact .rise low (Bool.not_eq_true _ ▸ loading)

theorem upstreamRequestEffect_event (hp : s.pwrOk = true) (kind : Access) (tag : Tag) (code : BitVec 2) (addr : Addr)
    (beats : List WriteLine) : s.Event (upstreamRequestEffect kind tag code addr beats s) := by
  rw [upstreamRequestEffect, powered_of_high hp]
  split
  · exact .overrun _
  next credit =>
    split
    · exact .rejected _ _
    next size _ =>
      split
      next k free => exact .accepted k kind tag size addr beats _ credit free
      · exact .nothing

theorem issueGrantEffect_event (hp : s.pwrOk = true) : s.Event (issueGrantEffect s) := by
  rw [issueGrantEffect, powered_of_high hp]
  split
  next link => exact .grant link
  · exact .nothing

theorem downstreamResponseEffect_event (hp : s.pwrOk = true) (tag : Tag) (status : BitVec 2) (beats : List ReadBeat)
    (first : Bool) : s.Event (downstreamResponseEffect tag status beats first s) := by
  rw [downstreamResponseEffect, powered_of_high hp]
  split
  next link =>
    split
    · exact .nothing
    next e entry => exact .response tag e _ first link entry
  · exact .nothing

theorem creditGrantEffect_event (hp : s.pwrOk = true) (count : Byte) : s.Event (creditGrantEffect count s) := by
  rw [creditGrantEffect, powered_of_high hp]
  split
  next link => exact .credits count link
  · exact .nothing

theorem statusReportEffect_event (hp : s.pwrOk = true) (k : Nat) : s.Event (statusReportEffect k s) := by
  rw [statusReportEffect, powered_of_high hp]
  split
  · exact .nothing
  next r waiting => exact .report k r waiting

theorem targetFailureEffect_event (hp : s.pwrOk = true) (k : Nat) : s.Event (targetFailureEffect k s) := by
  rw [targetFailureEffect, powered_of_high hp]
  split
  · exact .nothing
  next r waiting => exact .failure k r waiting

theorem startEffect_event (hp : s.pwrOk = true) : s.Event (startEffect s) := by
  rw [startEffect, powered_of_high hp]
  split
  · exact .nothing
  · split
    · exact .startEventSpent
    next may =>
      split
      · exact .startEventSpent
      next i nearest =>
        split
        next r waiting => exact .started i r (Bool.not_eq_false _ ▸ may) nearest waiting
        · exact .nothing

theorem claimEffect_event (hp : s.pwrOk = true) : s.Event (claimEffect s) := by
  rw [claimEffect, powered_of_high hp]
  split
  next m p context =>
    split
    next inBlock => exact .claimed m p context inBlock
    · exact .nothing
  · exact .nothing

theorem copyDeadlineEffect_event (hp : s.pwrOk = true) : s.Event (copyDeadlineEffect s) := by
  rw [copyDeadlineEffect, powered_of_high hp]
  split
  next m p c context => exact .copyReadTimeout m p c context
  next m p b c context => exact .copyWriteTimeout m p b c context
  · exact .nothing

theorem slotDeadlineEffect_event (hp : s.pwrOk = true) (k : Nat) : s.Event (slotDeadlineEffect k s) := by
  rw [slotDeadlineEffect, powered_of_high hp]
  split
  · exact .nothing
  next x slot =>
    split
    · exact .nothing
    next active => exact .orphaned k x slot active
    next queued => exact .queuedTimeout k x slot queued
    next held =>
      dsimp only
      split
      · exact .heldTimeoutUnstalls k x slot held
      · exact .heldTimeout k x slot held

theorem patrolDeadlineEffect_event (hp : s.pwrOk = true) : s.Event (patrolDeadlineEffect s) := by
  rw [patrolDeadlineEffect, powered_of_high hp]
  split
  next b q t deadline reading => exact .patrolTimeout b q t deadline reading
  · exact .nothing

theorem gapExpiryEffect_event (hp : s.pwrOk = true) : s.Event (gapExpiryEffect s) := by
  rw [gapExpiryEffect, powered_of_high hp]
  split
  next n gap => exact .gapExpired n gap
  · exact .nothing

theorem issueAttemptEffect_event (hp : s.pwrOk = true) : s.Event (issueAttemptEffect s) := by
  rw [issueAttemptEffect, powered_of_high hp]
  split
  next seeking =>
    split
    · exact .offered seeking
    · exact .skipped seeking
  · exact .nothing

theorem decayExpiryEffect_event (hp : s.pwrOk = true) : s.Event (decayExpiryEffect s) := by
  rw [decayExpiryEffect, powered_of_high hp]
  split
  · exact .nothing
  next period =>
    dsimp only
    split
    next due => exact .decayed period due
    · exact .ticksAndDecayed _ period

theorem takeRecordEffect_event (hp : s.pwrOk = true) (k : Nat) : s.Event (takeRecordEffect k s) := by
  rw [takeRecordEffect, powered_of_high hp]
  split
  · exact .nothing
  next h handed =>
    split
    · exact .recordTaken k h handed
    · exact .nothing

theorem bitProgrammedEffect_event (hp : s.pwrOk = true) (bit : Nat) (holds : Bool) :
    s.Event (bitProgrammedEffect bit holds s) := by
  rw [bitProgrammedEffect, powered_of_high hp]
  split
  next slot record timer reported programming =>
    split
    · exact .bitReported slot record timer reported _ _ programming
    · exact .nothing
  · exact .nothing

theorem markerProgrammedEffect_event (hp : s.pwrOk = true) (holds : Bool) :
    s.Event (markerProgrammedEffect holds s) := by
  rw [markerProgrammedEffect, powered_of_high hp]
  split
  next slot record timer reported programming => exact .markerReported slot record timer reported _ programming
  · exact .nothing

theorem programmingTimeoutEffect_event (hp : s.pwrOk = true) : s.Event (programmingTimeoutEffect s) := by
  rw [programmingTimeoutEffect, powered_of_high hp]
  split
  · exact .ticks _
  · exact .nothing

theorem endOfVerifyingEffect_event (hp : s.pwrOk = true) : s.Event (endOfVerifyingEffect s) := by
  rw [endOfVerifyingEffect, powered_of_high hp]
  split
  next slot record timer verifying => exact .verified slot record timer verifying
  · exact .nothing

/-- Every event of a unit acts in one of the ways of `State.Event` while PWR_OK is high. -/
theorem eventEffect_event {i : Instr} {u : State} (hp : s.pwrOk = true) (h : eventEffect i s = some u) : s.Event u := by
  cases i <;> simp only [eventEffect, Option.some.injEq, reduceCtorEq] at h <;> subst h
  case ready => exact readyEffect_event hp
  case prstNFall => exact prstFallEffect_event hp
  case prstNRise => exact prstRiseEffect_event hp
  case upstreamRequest => exact upstreamRequestEffect_event hp ..
  case issueGrant => exact issueGrantEffect_event hp
  case downstreamResponse => exact downstreamResponseEffect_event hp ..
  case downstreamCreditGrant => exact creditGrantEffect_event hp _
  case statusReport => exact statusReportEffect_event hp _
  case targetFailure => exact targetFailureEffect_event hp _
  case start => exact startEffect_event hp
  case claim => exact claimEffect_event hp
  case claimDrainMet => rw [claimDrainMetEffect, powered_of_high hp]; exact .drained
  case commit => rw [commitEffect, powered_of_high hp]; exact .committed
  case copyDeadlineExpiry => exact copyDeadlineEffect_event hp
  case slotDeadlineExpiry => exact slotDeadlineEffect_event hp _
  case patrolDeadlineExpiry => exact patrolDeadlineEffect_event hp
  case gapExpiry => exact gapExpiryEffect_event hp
  case issueAttempt => exact issueAttemptEffect_event hp
  case decayExpiry => exact decayExpiryEffect_event hp
  case takeRecord => exact takeRecordEffect_event hp _
  case markerProgrammed => exact markerProgrammedEffect_event hp _
  case programmingTimeout => exact programmingTimeoutEffect_event hp
  case endOfVerifying => exact endOfVerifyingEffect_event hp
  case epochTick => rw [epochTickEffect, powered_of_high hp]; exact .ticks 1
  case bitProgrammed => exact bitProgrammedEffect_event hp ..
  case fweChange => rw [fweChangeEffect, powered_of_high hp]; exact .fweChanged _

/-- While PWR_OK is low no event of a unit changes anything (R153). -/
theorem eventEffect_of_low {i : Instr} {u : State} (hp : s.pwrOk = false) (h : eventEffect i s = some u) : u = s := by
  cases i <;> simp only [eventEffect, Option.some.injEq, reduceCtorEq] at h <;> subst h <;> exact powered_of_low hp _

end Effects

/-! ### The changes of the command frames -/

/-- From s the part goes to u by what a command of the port does to the unit that owns it, its answer apart: one constructor for
each command that can change a unit. -/
inductive State.Commanded (s : State) : State → Prop
  | unchanged : s.Commanded s
  | paramSet (p : Param) (v : Nat) (inRange : p.inRange v = true) :
      s.Commanded ((s.writeParam p v).paramWritten p (s.params.value p) v)
  | mapped (l k : Nat) (belowLimit : l < s.limit) (spare : k < 128) (free : entryAt s.table k = .free)
      (quiet : s.spareInFlight k = false) (notHeld : s.mig.holds l = false) (notSoft : softFor s.table l = none) :
      s.Commanded { s with table := mapSoftTable s.table l k }
  | unmapped (k l : Nat) (spare : k < 128) (soft : entryAt s.table k = .soft l false) (notHeld : s.mig.holds l = false) :
      s.Commanded (s.setEntry k .free)
  | banned (k : Nat) (spare : k < 128) (free : entryAt s.table k = .free) :
      s.Commanded (s.setEntry k (.retired none none false false))
  | retiring (l : Nat) (belowLimit : l < s.limit) (notHeld : s.mig.holds l = false) (room : s.mig.isFull = false) :
      s.Commanded (s.setMig (s.mig.join { l := l, origin := .manual, retry := 0, enqueued := s.clock.epoch }))
  | cancelled (l : Nat) :
      s.Commanded (s.setMig { s.mig with waiting := s.mig.waiting.eraseP fun r => r.l == l })
  | aborted (m : Move) (p : Nat) (lock : Option Lock) (context : s.mig.context = .copying m p lock) :
      s.Commanded (s.stopMove m lock (.migAborted m.req.l .manual)).toIdle
  | cleared (p : Nat) : s.Commanded (s.freeSuspect p)
  | rearmed (i : Nat) (e : Suspect) (entry : s.suspect? i = some e) : s.Commanded (s.setSuspect i e.rearmed)
  | acknowledged (i : Nat) : s.Commanded { s with recs := s.recs.removeThrough i }
  | committing (ptr l : Nat) (record : FuseRecord) (programmer : s.fuse.programmer = .idle)
      (pointer : s.fuse.appendPtr = some ptr) (slot : ptr < 32) (spare : record.spare < 128) :
      s.Commanded (s.acceptCommit ptr record l).after

/-- What the owning rule of a command answers; RESULT_READ as a command frame is never answered by it (R176). -/
def Command.reply (c : Command) (args : List Byte) (ahead : List StatusUnit) : State → Reply :=
  match c with
  | .getStatus => getStatusReply ahead
  | .resultRead => fun s => s.report []
  | .getParam => getParamReply (ofBe args)
  | .setParam => setParamReply (ofBe (args.take 1)) (ofBe (args.drop 1))
  | .readMap => readMapReply (ofBe args)
  | .mapSoft => mapSoftReply (ofBe (args.take 3)) (ofBe (args.drop 3))
  | .unmapSoft => unmapSoftReply (ofBe args)
  | .banSpare => banSpareReply (ofBe args)
  | .retire => retireReply (ofBe args)
  | .cancelRetire => cancelRetireReply (ofBe args)
  | .abortMigration => abortReply
  | .readMigration => if args = [] then readContextReply else readWaitingReply (ofBe args)
  | .readSuspect => readSuspectReply (ofBe args)
  | .clearSuspect => clearSuspectReply (ofBe args)
  | .rearm => rearmReply (ofBe args)
  | .readFaults => readFaultsReply (ofBe (args.take 1)) (ofBe (args.drop 1))
  | .ackFaults => ackFaultsReply (ofBe args)
  | .commitHard => commitHardReply (ofBe args)
  | .commitBan => commitBanReply (ofBe args)
  | .readFuse => readFuseReply (ofBe args)

/-- A command frame is answered by the common checks and the owning rule (R182). -/
theorem runCommand_eq {c : Command} {args : List Byte} (h : c = .resultRead → args ≠ []) (s : State) :
    runCommand c args s = command c args s (c.reply args []) := by
  cases c
  case resultRead => exact if_neg (h rfl)
  all_goals rfl

end Sys2Proof.Machine
end

section
/-! What the owning rule of each command can answer: a refusal, a report, or one of the changes of `State.Commanded`. -/

namespace Sys2Proof.Machine

/-! ### Payload lengths (R201) -/

/-- A fault record takes 16 bytes (R203). -/
@[simp] theorem FaultRecord.length_bytes (r : FaultRecord) : r.bytes.length = 16 := by
  have operands : r.body.operands.length ≤ 7 := by cases r.body <;> simp [RecordBody.operands]
  simp [FaultRecord.bytes]
  omega

/-- At most n records of 16 bytes each. -/
theorem length_flatMap_bytes_take (q : List FaultRecord) (n : Nat) :
    ((q.take n).flatMap FaultRecord.bytes).length ≤ 16 * n := by
  have each : ∀ l : List FaultRecord, (l.flatMap FaultRecord.bytes).length = 16 * l.length := fun l => by
    induction l with
    | nil => rfl
    | cons r l ih => rw [List.flatMap_cons, List.length_append, ih, FaultRecord.length_bytes, List.length_cons]; omega
  rw [each, List.length_take]
  omega

@[simp] theorem length_mapItems (t : List Entry) : (mapItems t).length = 6 := rfl

@[simp] theorem RecordUnit.length_items (r : RecordUnit) : r.items.length = 6 := rfl

@[simp] theorem State.length_appendByte (s : State) : s.appendByte.length = 1 := rfl

@[simp] theorem MigrationUnit.length_items (m : MigrationUnit) : m.items.length = 6 := by
  unfold MigrationUnit.items Context.statusBytes
  split <;> rfl

/-- GET_STATUS sends 33 bytes, whatever state each unit's items are read from (R201). -/
@[simp] theorem length_statusBytes (src : StatusUnit → State) : (statusBytes src).length = 33 := by
  simp [statusBytes]

@[simp] theorem length_moveBytes (m : Move) (p : Nat) (lock : Option Lock) : (moveBytes m p lock).length = 20 := by
  cases lock <;> rfl

@[simp] theorem length_fuseBytes (w : FuseWord) : (fuseBytes w).length = 5 := rfl

@[simp] theorem SlotKind.length_causeByte (k : SlotKind) : k.causeByte.length = 1 := by cases k <;> rfl

@[simp] theorem SlotImage.length_fields (i : SlotImage) : i.fields.length = 5 := by
  unfold SlotImage.fields
  split <;> rfl

/-! ### The answers -/

/-- The commands that report and change no unit. -/
def Command.reads (c : Command) : Bool :=
  match c with
  | .getStatus | .resultRead | .getParam | .readMap | .readMigration | .readSuspect | .readFaults | .readFuse => true
  | _ => false

/-- What the owning rule of command c answers in s: a refusal, a report of at most 48 bytes, or a change, which only the two
commits answer with ACCEPTED (R179, R186). -/
inductive State.Answers (s : State) (c : Command) : Reply → Prop
  | refused (code : ResultCode) (notOk : code ≠ .ok) (notAccepted : code ≠ .accepted) : s.Answers c (s.refuse code)
  | reported (payload : List Byte) (short : payload.length ≤ 48) : s.Answers c (s.report payload)
  | changed (payload : List Byte) (u : State) (short : payload.length ≤ 48) (writes : c.reads = false)
      (change : s.Commanded u) : s.Answers c { result := .ok, payload := payload, after := u }
  | accepted (payload : List Byte) (u : State) (short : payload.length ≤ 48) (commit : c = .commitHard ∨ c = .commitBan)
      (change : s.Commanded u) : s.Answers c { result := .accepted, payload := payload, after := u }

section Replies

variable (s : State)

theorem getParamReply_answers (id : Nat) : s.Answers .getParam (getParamReply id s) := by
  unfold getParamReply
  split
  · exact .refused .range nofun nofun
  · exact .reported _ (by simp)

theorem setParamReply_answers (id v : Nat) : s.Answers .setParam (setParamReply id v s) := by
  unfold setParamReply
  split
  · exact .refused .range nofun nofun
  next p _ =>
    split
    · exact .refused .range nofun nofun
    next inRange => exact .changed _ _ (by simp) rfl (.paramSet p v (Bool.not_eq_false _ ▸ inRange))

theorem readMapReply_answers (k : Nat) : s.Answers .readMap (readMapReply k s) := by
  unfold readMapReply
  split
  · exact .refused .range nofun nofun
  · exact .reported _ (by simp)

theorem mapSoftReply_answers (l k : Nat) : s.Answers .mapSoft (mapSoftReply l k s) := by
  unfold mapSoftReply
  split
  · exact .refused .range nofun nofun
  next inRange =>
    obtain ⟨belowLimit, spare⟩ := not_or.mp inRange
    split
    · exact .refused .state nofun nofun
    next free =>
      split
      · exact .refused .busy nofun nofun
      next quiet =>
        split
        · exact .refused .busy nofun nofun
        next notHeld =>
          split
          · exact .refused .state nofun nofun
          next notSoft =>
            exact .changed _ _ (by simp) rfl
              (.mapped l k (Nat.not_le.mp belowLimit) (Nat.not_le.mp spare) (not_not.mp free) (Bool.not_eq_true _ ▸ quiet)
                (Bool.not_eq_true _ ▸ notHeld) (by simpa using notSoft))

theorem unmapSoftReply_answers (k : Nat) : s.Answers .unmapSoft (unmapSoftReply k s) := by
  unfold unmapSoftReply
  split
  · exact .refused .range nofun nofun
  next spare =>
    split
    next l pending soft =>
      cases pending with
      | true => exact .refused .busy nofun nofun
      | false =>
        split
        next h => exact absurd h Bool.false_ne_true
        · split
          · exact .refused .busy nofun nofun
          next notHeld =>
            exact .changed _ _ (by simp) rfl (.unmapped k l (Nat.not_le.mp spare) soft (Bool.not_eq_true _ ▸ notHeld))
    · exact .refused .state nofun nofun

theorem banSpareReply_answers (k : Nat) : s.Answers .banSpare (banSpareReply k s) := by
  unfold banSpareReply
  split
  · exact .refused .range nofun nofun
  next spare =>
    split
    · exact .refused .already nofun nofun
    next free => exact .changed _ _ (by simp) rfl (.banned k (Nat.not_le.mp spare) free)
    · exact .refused .state nofun nofun

theorem retireReply_answers (l : Nat) : s.Answers .retire (retireReply l s) := by
  unfold retireReply
  split
  · exact .refused .range nofun nofun
  next belowLimit =>
    split
    · exact .refused .already nofun nofun
    next notHeld =>
      split
      · exact .refused .full nofun nofun
      next room =>
        exact .changed _ _ (by simp) rfl
          (.retiring l (Nat.not_le.mp belowLimit) (Bool.not_eq_true _ ▸ notHeld) (Bool.not_eq_true _ ▸ room))

theorem cancelRetireReply_answers (l : Nat) : s.Answers .cancelRetire (cancelRetireReply l s) := by
  unfold cancelRetireReply
  split
  · exact .refused .range nofun nofun
  · split
    · exact .refused .none nofun nofun
    · exact .changed _ _ (by simp) rfl (.cancelled l)

theorem abortReply_answers : s.Answers .abortMigration (abortReply s) := by
  unfold abortReply
  split
  · exact .refused .none nofun nofun
  · exact .refused .tooLate nofun nofun
  next m p lock context => exact .changed _ _ (by simp) rfl (.aborted m p lock context)

theorem readContextReply_answers : s.Answers .readMigration (readContextReply s) := by
  unfold readContextReply
  exact .reported _ (by cases s.mig.context <;> simp)

theorem readWaitingReply_answers (k : Nat) : s.Answers .readMigration (readWaitingReply k s) := by
  unfold readWaitingReply
  split
  · exact .refused .range nofun nofun
  · split
    · exact .refused .none nofun nofun
    · exact .reported _ (by simp)

theorem readSuspectReply_answers (i : Nat) : s.Answers .readSuspect (readSuspectReply i s) := by
  unfold readSuspectReply
  split
  · exact .refused .range nofun nofun
  · split
    · exact .refused .none nofun nofun
    · exact .reported _ (by simp)

theorem clearSuspectReply_answers (p : Nat) : s.Answers .clearSuspect (clearSuspectReply p s) := by
  unfold clearSuspectReply
  split
  · exact .refused .range nofun nofun
  · split
    · exact .refused .none nofun nofun
    · split
      · exact .refused .none nofun nofun
      · exact .changed _ _ (by simp) rfl (.cleared p)

theorem rearmReply_answers (p : Nat) : s.Answers .rearm (rearmReply p s) := by
  unfold rearmReply
  split
  · exact .refused .range nofun nofun
  · split
    · exact .refused .none nofun nofun
    next i _ =>
      split
      · exact .refused .none nofun nofun
      next e entry => exact .changed _ _ (by simp) rfl (.rearmed i e entry)

theorem readFaultsReply_answers (i n : Nat) : s.Answers .readFaults (readFaultsReply i n s) := by
  unfold readFaultsReply
  split
  · exact .refused .range nofun nofun
  next inRange =>
    split
    · exact .refused .none nofun nofun
    · exact .reported _ ((length_flatMap_bytes_take _ n).trans (by omega))

theorem ackFaultsReply_answers (seq : Nat) : s.Answers .ackFaults (ackFaultsReply seq s) := by
  unfold ackFaultsReply
  split
  · exact .refused .none nofun nofun
  next i _ => exact .changed _ _ (by simp) rfl (.acknowledged i)

/-- The common checks of the two commits pass with the programmer IDLE and a slot free, for a spare of the pool (R160, R161). -/
theorem State.commitCheck_ok {k ptr : Nat} (h : s.commitCheck k = .ok ptr) :
    s.fuse.programmer = .idle ∧ s.fuse.appendPtr = some ptr ∧ ptr < 32 ∧ k < 128 := by
  unfold State.commitCheck at h
  split at h
  · cases h
  next programmer =>
    split at h
    · cases h
    · split at h
      next p pointer =>
        split at h
        · cases h
        next slot =>
          split at h
          · cases h
          next spare =>
            cases h
            exact ⟨not_not.mp programmer, pointer, Nat.not_le.mp slot, Nat.not_le.mp spare⟩
      · cases h

/-- The common checks of the two commits refuse with a code that is neither OK nor ACCEPTED. -/
theorem State.commitCheck_error {k : Nat} {r : ResultCode} (h : s.commitCheck k = .error r) : r ≠ .ok ∧ r ≠ .accepted := by
  unfold State.commitCheck at h
  split at h
  · cases h; exact ⟨nofun, nofun⟩
  · split at h
    · cases h; exact ⟨nofun, nofun⟩
    · split at h
      · split at h
        · cases h; exact ⟨nofun, nofun⟩
        · split at h
          · cases h; exact ⟨nofun, nofun⟩
          · cases h
      · cases h; exact ⟨nofun, nofun⟩

theorem commitHardReply_answers (k : Nat) : s.Answers .commitHard (commitHardReply k s) := by
  unfold commitHardReply
  split
  next r h => exact .refused r (s.commitCheck_error h).1 (s.commitCheck_error h).2
  next ptr h =>
    obtain ⟨programmer, pointer, slot, spare⟩ := s.commitCheck_ok h
    split
    next l pending _ =>
      split
      · exact .refused .busy nofun nofun
      · split
        · exact .refused .busy nofun nofun
        · exact .accepted _ _ (by simp) (.inl rfl) (.committing ptr l (.map l k) programmer pointer slot spare)
    · exact .refused .state nofun nofun

theorem commitBanReply_answers (k : Nat) : s.Answers .commitBan (commitBanReply k s) := by
  unfold commitBanReply
  split
  next r h => exact .refused r (s.commitCheck_error h).1 (s.commitCheck_error h).2
  next ptr h =>
    obtain ⟨programmer, pointer, slot, spare⟩ := s.commitCheck_ok h
    split
    · split
      · exact .refused .already nofun nofun
      · exact .accepted _ _ (by simp) (.inr rfl) (.committing ptr 0 (.ban k) programmer pointer slot spare)
    · exact .refused .state nofun nofun

theorem readFuseReply_answers (k : Nat) : s.Answers .readFuse (readFuseReply k s) := by
  unfold readFuseReply
  split
  · exact .refused .range nofun nofun
  · exact .reported _ (by simp)

/-- Everything the owning rule of a command can answer. -/
theorem Command.reply_answers (c : Command) (args : List Byte) (ahead : List StatusUnit) :
    s.Answers c (c.reply args ahead s) := by
  cases c
  case getStatus => exact .reported _ (by simp)
  case resultRead => exact .reported [] (by simp)
  case getParam => exact getParamReply_answers s _
  case setParam => exact setParamReply_answers s _ _
  case readMap => exact readMapReply_answers s _
  case mapSoft => exact mapSoftReply_answers s _ _
  case unmapSoft => exact unmapSoftReply_answers s _
  case banSpare => exact banSpareReply_answers s _
  case retire => exact retireReply_answers s _
  case cancelRetire => exact cancelRetireReply_answers s _
  case abortMigration => exact abortReply_answers s
  case readMigration =>
    unfold Command.reply
    split
    · exact readContextReply_answers s
    · exact readWaitingReply_answers s _
  case readSuspect => exact readSuspectReply_answers s _
  case clearSuspect => exact clearSuspectReply_answers s _
  case rearm => exact rearmReply_answers s _
  case readFaults => exact readFaultsReply_answers s _ _
  case ackFaults => exact ackFaultsReply_answers s _
  case commitHard => exact commitHardReply_answers s _
  case commitBan => exact commitBanReply_answers s _
  case readFuse => exact readFuseReply_answers s _

/-- An answer leaves its owning unit as it was, or changed in one of the ways of `State.Commanded`. -/
theorem State.Answers.commanded {s : State} {c : Command} {r : Reply} (h : s.Answers c r) : s.Commanded r.after := by
  cases h with
  | refused | reported => exact .unchanged
  | changed _ _ _ _ change | accepted _ _ _ _ change => exact change

end Replies

/-! ### A step -/

/-- From s the part goes to u by a frame of the port: nothing, or a command's change to its unit, and then the port's own fields
with the parameter set as the change left it (R178, R180). -/
def State.Framed (s u : State) : Prop :=
  ∃ v p, s.Commanded v ∧ p.params = v.port.params ∧ u = { v with port := p }

/-- A change of the port's own fields alone. -/
theorem State.Framed.of_port {s : State} {p : MgmtPort} (h : p.params = s.port.params) : s.Framed { s with port := p } :=
  ⟨s, p, .unchanged, h, rfl⟩

theorem State.Framed.refl (s : State) : s.Framed s := .of_port (p := s.port) rfl

theorem State.framed_raiseMcs (s : State) : s.Framed s.raiseMcs := .of_port rfl

theorem State.framed_sendResult (s : State) (clocked : Nat) : s.Framed (s.sendResult clocked) := .of_port rfl

/-- An answer to a command's change replaces the held result and leaves the parameter set. -/
theorem State.Commanded.framed_holdResult {s v : State} (h : s.Commanded v) (code : Byte) (r : ResultCode)
    (payload : List Byte) (n : Nat) : s.Framed (v.holdResult code r payload n) := by
  refine ⟨v, (v.holdResult code r payload n).port, h, ?_, ?_⟩ <;> rfl

/-- A rise of MCS_N does nothing but what its handling does, if it ends a frame (R173). -/
theorem atPort_framed {s : State} {f : State → State} (h : s.takesFrames → s.Framed (f s)) : s.Framed (atPort s f) := by
  unfold atPort powered
  split
  next hp =>
    dsimp only
    split
    next hm => exact h ⟨hp, hm⟩
    · exact s.framed_raiseMcs
  · exact .refl s

/-- A command frame's whole effect (R182). -/
theorem command_framed {s : State} {c : Command} {args : List Byte} {run : State → Reply}
    (h : s.Commanded (run s).after) : s.Framed (command c args s run) := by
  refine atPort_framed fun _ => ?_
  split
  · exact State.Commanded.unchanged.framed_holdResult ..
  · split
    · exact State.Commanded.unchanged.framed_holdResult ..
    · exact h.framed_holdResult ..

theorem resultReadEffect_framed (args : List Byte) (clocked : Nat) (s : State) :
    s.Framed (resultReadEffect args clocked s) := by
  unfold resultReadEffect
  split
  · exact atPort_framed fun _ => s.framed_sendResult clocked
  · exact command_framed .unchanged

theorem runCommand_framed (c : Command) (args : List Byte) (s : State) : s.Framed (runCommand c args s) := by
  by_cases h : c = .resultRead → args ≠ []
  · rw [runCommand_eq h]
    exact command_framed (Command.reply_answers s c args []).commanded
  · push Not at h
    obtain ⟨rfl, rfl⟩ := h
    exact resultReadEffect_framed [] 0 s

theorem runFrame_framed (code : Byte) (args : List Byte) (s : State) : s.Framed (runFrame code args s) := by
  unfold runFrame
  split
  · exact runCommand_framed _ args s
  · exact atPort_framed fun _ => State.Commanded.unchanged.framed_holdResult ..

theorem endFrame_framed (msi : List Bool) (s : State) : s.Framed (endFrame msi s) := by
  unfold endFrame
  dsimp only
  split
  · exact atPort_framed fun _ => s.framed_sendResult _
  · exact atPort_framed fun _ => State.Commanded.unchanged.framed_holdResult ..
  · exact runFrame_framed _ _ s

/-- The command of the table that carries a frame's command runs it by the common checks and its owning rule, but for a read
frame (R176, R182). -/
theorem exec_instr {c : Command} {args : List Byte} (h : c = .resultRead → args ≠ []) (ahead : List StatusUnit)
    (s : State) : exec (c.instr args ahead) s = .next (command c args s (c.reply args ahead)) := by
  cases c
  case resultRead => exact congrArg Host.Outcome.next (if_neg (h rfl))
  all_goals rfl

/-- Everything a command can do to the part, the queue apart: the rise or the fall of PWR_OK, an event of a unit, or a frame of
the port. -/
theorem exec_cases {i : Instr} {s t : State} (h : exec i s = .next t) :
    (∃ straps prst mcs, t = powerOnEffect straps prst mcs s) ∨ t = powerLossEffect s ∨ t = s ∨
      eventEffect i s = some t ∨ s.Framed t := by
  have frame : ∀ {c : Command} {args : List Byte} {ahead : List StatusUnit}, (c = .resultRead → args ≠ []) →
      exec (c.instr args ahead) s = .next t →
      (∃ straps prst mcs, t = powerOnEffect straps prst mcs s) ∨ t = powerLossEffect s ∨ t = s ∨
        eventEffect i s = some t ∨ s.Framed t := fun {c args ahead} hc he => by
    rw [exec_instr hc] at he
    cases he
    exact .inr (.inr (.inr (.inr (command_framed (Command.reply_answers s c args ahead).commanded))))
  cases i
  case powerOn => cases h; exact .inl ⟨_, _, _, rfl⟩
  case powerLoss => cases h; exact .inr (.inl rfl)
  case upstreamOtherMessage | downstreamOtherMessage => cases h; exact .inr (.inr (.inl rfl))
  case malformedFrame edges msi => cases h; exact .inr (.inr (.inr (.inr (endFrame_framed _ s))))
  case unknownCommand => cases h; exact .inr (.inr (.inr (.inr (runFrame_framed _ _ s))))
  case resultRead args clocked =>
    cases h
    exact .inr (.inr (.inr (.inr (resultReadEffect_framed args clocked s))))
  case getStatus f => exact frame (c := .getStatus) (ahead := f.ahead) nofun h
  case getParam => exact frame (c := .getParam) (ahead := []) nofun h
  case setParam => exact frame (c := .setParam) (ahead := []) nofun h
  case readMap => exact frame (c := .readMap) (ahead := []) nofun h
  case mapSoft => exact frame (c := .mapSoft) (ahead := []) nofun h
  case unmapSoft => exact frame (c := .unmapSoft) (ahead := []) nofun h
  case banSpare => exact frame (c := .banSpare) (ahead := []) nofun h
  case retire => exact frame (c := .retire) (ahead := []) nofun h
  case cancelRetire => exact frame (c := .cancelRetire) (ahead := []) nofun h
  case abortMigration => exact frame (c := .abortMigration) (ahead := []) nofun h
  case readMigration => exact frame (c := .readMigration) (ahead := []) nofun h
  case readSuspect => exact frame (c := .readSuspect) (ahead := []) nofun h
  case clearSuspect => exact frame (c := .clearSuspect) (ahead := []) nofun h
  case rearm => exact frame (c := .rearm) (ahead := []) nofun h
  case readFaults => exact frame (c := .readFaults) (ahead := []) nofun h
  case ackFaults => exact frame (c := .ackFaults) (ahead := []) nofun h
  case commitHard => exact frame (c := .commitHard) (ahead := []) nofun h
  case commitBan => exact frame (c := .commitBan) (ahead := []) nofun h
  case readFuse => exact frame (c := .readFuse) (ahead := []) nofun h
  all_goals cases h; exact .inr (.inr (.inr (.inl rfl)))

/-- What a predicate has to be kept by so that every step keeps it: a change of the queue alone, a change of the port's own fields,
the rise and the fall of PWR_OK, the events of the units, and the commands' changes to their units. -/
structure KeptByParts (P : State → Prop) : Prop where
  pending : ∀ (s : State) (q : List Instr), P s → P { s with pending := q }
  port : ∀ (s : State) (p : MgmtPort), p.params = s.port.params → P s → P { s with port := p }
  powerOn : ∀ (s : State) (straps : Straps) (prst mcs : Bool), P s → P (powerOnEffect straps prst mcs s)
  powerLoss : ∀ s : State, s.pwrOk = true → P s →
    P { State.atRise s.fuseArray s.prstN s.fwe s.port.mcs s.pending with pwrOk := false }
  event : ∀ s u : State, s.pwrOk = true → P s → s.Event u → P u
  command : ∀ s u : State, P s → s.Commanded u → P u

/-- A predicate that each part of a step keeps is kept by every step. -/
theorem KeptByParts.step {P : State → Prop} (h : KeptByParts P) {s t : State} (hs : P s) (ht : step s = .next t) : P t := by
  unfold Machine.step at ht
  split at ht
  next c rest _ =>
    have hs' : P { s with pending := rest } := h.pending s rest hs
    generalize { s with pending := rest } = s' at ht hs'
    obtain ⟨straps, prst, mcs, rfl⟩ | rfl | rfl | he | ⟨v, p, hv, hp, rfl⟩ := exec_cases ht
    · exact h.powerOn s' straps prst mcs hs'
    · unfold powerLossEffect powered
      split
      next hp => exact h.powerLoss s' hp hs'
      · exact hs'
    · exact hs'
    · cases hp : s'.pwrOk with
      | true => exact h.event s' t hp hs' (eventEffect_event hp he)
      | false => rwa [eventEffect_of_low hp he]
    · exact h.port v p hp (h.command s' v hs' hv)
  next =>
    cases ht
    unfold State.idle powered
    split
    next hp => exact h.event s _ hp hs (.passes 1)
    · exact hs

/-- Settles O52: each answer of `State.Answers`, or of the common checks, as the state it leaves says. -/
theorem refusalChangesNothing : Obligations.RefusalChangesNothing := by
  intro c args ahead s takes notRead
  have reading : ∀ c : Command,
      c ∈ [Command.getStatus, .getParam, .readMap, .readMigration, .readSuspect, .readFaults, .readFuse] → c.reads = true := by
    rintro (_ | _) <;> decide
  rw [exec_instr notRead]
  obtain ⟨low, -⟩ | ⟨-, low, -⟩ | ⟨-, r, code, eq⟩ | ⟨-, -, -, eq⟩ := command_cases c args s (c.reply args ahead)
  · exact absurd (low.symm.trans takes.1) Bool.false_ne_true
  · exact absurd (low.symm.trans takes.2) nofun
  · rw [eq]
    refine ⟨r, [], s, rfl, Nat.zero_le _, fun _ _ => ⟨rfl, rfl⟩, ?_, fun _ => rfl⟩
    rintro rfl
    simp at code
  · rw [eq]
    refine ⟨_, _, _, rfl, ?_⟩
    have answers := Command.reply_answers s c args ahead
    generalize c.reply args ahead s = r at answers
    cases answers with
    | refused code _ notAccepted =>
      exact ⟨Nat.zero_le _, fun _ _ => ⟨rfl, rfl⟩, fun h => absurd h notAccepted, fun _ => rfl⟩
    | reported payload short => exact ⟨short, fun h _ => absurd rfl h, nofun, fun _ => rfl⟩
    | changed payload u short writes change =>
      refine ⟨short, fun h _ => absurd rfl h, nofun, fun hc => ?_⟩
      exact absurd (reading c hc) (writes ▸ Bool.false_ne_true)
    | accepted payload u short commit change =>
      refine ⟨short, fun _ h => absurd rfl h, fun _ => commit, fun hc => ?_⟩
      obtain rfl | rfl := commit <;> simp at hc

end Sys2Proof.Machine
end

section
/-! The passing of time leaves every unit but the clock, the error watch unit, the patrol unit and the programmer as it was, field
by field. -/

namespace Sys2Proof.Machine

variable (s : State)

/-! ### advanceTo -/

@[simp] theorem State.advanceTo_pwrOk (t : Nat) : (s.advanceTo t).pwrOk = s.pwrOk := rfl
@[simp] theorem State.advanceTo_prstN (t : Nat) : (s.advanceTo t).prstN = s.prstN := rfl
@[simp] theorem State.advanceTo_fwe (t : Nat) : (s.advanceTo t).fwe = s.fwe := rfl
@[simp] theorem State.advanceTo_fuseArray (t : Nat) : (s.advanceTo t).fuseArray = s.fuseArray := rfl
@[simp] theorem State.advanceTo_table (t : Nat) : (s.advanceTo t).table = s.table := rfl
@[simp] theorem State.advanceTo_req (t : Nat) : (s.advanceTo t).req = s.req := rfl
@[simp] theorem State.advanceTo_arb (t : Nat) : (s.advanceTo t).arb = s.arb := rfl
@[simp] theorem State.advanceTo_mig (t : Nat) : (s.advanceTo t).mig = s.mig := rfl
@[simp] theorem State.advanceTo_watch (t : Nat) : (s.advanceTo t).watch = s.watch := rfl
@[simp] theorem State.advanceTo_recs (t : Nat) : (s.advanceTo t).recs = s.recs := rfl
@[simp] theorem State.advanceTo_fuse (t : Nat) : (s.advanceTo t).fuse = s.fuse := rfl
@[simp] theorem State.advanceTo_port (t : Nat) : (s.advanceTo t).port = s.port := rfl
@[simp] theorem State.advanceTo_upSent (t : Nat) : (s.advanceTo t).upSent = s.upSent := rfl
@[simp] theorem State.advanceTo_downSent (t : Nat) : (s.advanceTo t).downSent = s.downSent := rfl
@[simp] theorem State.advanceTo_pending (t : Nat) : (s.advanceTo t).pending = s.pending := rfl

/-! ### passMilliseconds -/

@[simp] theorem State.passMilliseconds_pwrOk (d : Nat) : (s.passMilliseconds d).pwrOk = s.pwrOk := by
  unfold State.passMilliseconds; dsimp only; split <;> rfl
@[simp] theorem State.passMilliseconds_prstN (d : Nat) : (s.passMilliseconds d).prstN = s.prstN := by
  unfold State.passMilliseconds; dsimp only; split <;> rfl
@[simp] theorem State.passMilliseconds_fwe (d : Nat) : (s.passMilliseconds d).fwe = s.fwe := by
  unfold State.passMilliseconds; dsimp only; split <;> rfl
@[simp] theorem State.passMilliseconds_fuseArray (d : Nat) : (s.passMilliseconds d).fuseArray = s.fuseArray := by
  unfold State.passMilliseconds; dsimp only; split <;> rfl
@[simp] theorem State.passMilliseconds_table (d : Nat) : (s.passMilliseconds d).table = s.table := by
  unfold State.passMilliseconds; dsimp only; split <;> rfl
@[simp] theorem State.passMilliseconds_req (d : Nat) : (s.passMilliseconds d).req = s.req := by
  unfold State.passMilliseconds; dsimp only; split <;> rfl
@[simp] theorem State.passMilliseconds_arb (d : Nat) : (s.passMilliseconds d).arb = s.arb := by
  unfold State.passMilliseconds; dsimp only; split <;> rfl
@[simp] theorem State.passMilliseconds_mig (d : Nat) : (s.passMilliseconds d).mig = s.mig := by
  unfold State.passMilliseconds; dsimp only; split <;> rfl
@[simp] theorem State.passMilliseconds_recs (d : Nat) : (s.passMilliseconds d).recs = s.recs := by
  unfold State.passMilliseconds; dsimp only; split <;> rfl
@[simp] theorem State.passMilliseconds_port (d : Nat) : (s.passMilliseconds d).port = s.port := by
  unfold State.passMilliseconds; dsimp only; split <;> rfl
@[simp] theorem State.passMilliseconds_upSent (d : Nat) : (s.passMilliseconds d).upSent = s.upSent := by
  unfold State.passMilliseconds; dsimp only; split <;> rfl
@[simp] theorem State.passMilliseconds_downSent (d : Nat) : (s.passMilliseconds d).downSent = s.downSent := by
  unfold State.passMilliseconds; dsimp only; split <;> rfl
@[simp] theorem State.passMilliseconds_pending (d : Nat) : (s.passMilliseconds d).pending = s.pending := by
  unfold State.passMilliseconds; dsimp only; split <;> rfl

/-- Ticks act on the error watch unit as `WatchUnit.pass` says. -/
theorem State.passMilliseconds_watch (d : Nat) :
    (s.passMilliseconds d).watch = s.watch.pass (s.params.decayPeriod * 100) d := by
  unfold State.passMilliseconds; dsimp only; split <;> rfl

/-- Ticks act on the fuse unit through the programming timer alone. -/
theorem State.passMilliseconds_fuse (d : Nat) :
    (s.passMilliseconds d).fuse = { s.fuse with programmer := s.fuse.programmer.pass d } := by
  unfold State.passMilliseconds; dsimp only; split <;> rfl

end Sys2Proof.Machine
end

section
/-! The two operations of the migration unit that the model names and that answer a fall of PRST_N and a failure report: the units
each can change, and that it leaves the others as they were. -/

namespace Sys2Proof.Machine

variable (s : State)

/-! ### migrationReset -/

/-- A fall of PRST_N changes, of the units the migration unit reaches, the table, the request unit, the migration unit, the
suspect table and the records (R93, R94). -/
theorem State.migrationReset_frame :
    ∃ (t : List Entry) (r : RequestUnit) (m : MigrationUnit) (w : WatchUnit) (c : RecordUnit),
      s.migrationReset = { s with table := t, req := r, mig := m, watch := w, recs := c } := by
  unfold State.migrationReset
  split
  · exact ⟨_, _, _, _, _, rfl⟩
  next m p lock _ =>
    obtain ⟨t, r, c, h⟩ := s.stopMove_frame m lock (.migAborted m.req.l .portReset)
    rw [h]
    exact ⟨_, _, _, _, _, rfl⟩
  next m _ =>
    obtain ⟨t, u, w, c, h⟩ := s.commitMove_frame m
    rw [h]
    exact ⟨_, _, _, _, _, rfl⟩

@[simp] theorem State.migrationReset_pwrOk : s.migrationReset.pwrOk = s.pwrOk := by
  obtain ⟨_, _, _, _, _, h⟩ := s.migrationReset_frame
  rw [h]

@[simp] theorem State.migrationReset_prstN : s.migrationReset.prstN = s.prstN := by
  obtain ⟨_, _, _, _, _, h⟩ := s.migrationReset_frame
  rw [h]

@[simp] theorem State.migrationReset_fwe : s.migrationReset.fwe = s.fwe := by
  obtain ⟨_, _, _, _, _, h⟩ := s.migrationReset_frame
  rw [h]

@[simp] theorem State.migrationReset_fuseArray : s.migrationReset.fuseArray = s.fuseArray := by
  obtain ⟨_, _, _, _, _, h⟩ := s.migrationReset_frame
  rw [h]

@[simp] theorem State.migrationReset_clock : s.migrationReset.clock = s.clock := by
  obtain ⟨_, _, _, _, _, h⟩ := s.migrationReset_frame
  rw [h]

@[simp] theorem State.migrationReset_arb : s.migrationReset.arb = s.arb := by
  obtain ⟨_, _, _, _, _, h⟩ := s.migrationReset_frame
  rw [h]

@[simp] theorem State.migrationReset_patrol : s.migrationReset.patrol = s.patrol := by
  obtain ⟨_, _, _, _, _, h⟩ := s.migrationReset_frame
  rw [h]

@[simp] theorem State.migrationReset_fuse : s.migrationReset.fuse = s.fuse := by
  obtain ⟨_, _, _, _, _, h⟩ := s.migrationReset_frame
  rw [h]

@[simp] theorem State.migrationReset_port : s.migrationReset.port = s.port := by
  obtain ⟨_, _, _, _, _, h⟩ := s.migrationReset_frame
  rw [h]

@[simp] theorem State.migrationReset_upSent : s.migrationReset.upSent = s.upSent := by
  obtain ⟨_, _, _, _, _, h⟩ := s.migrationReset_frame
  rw [h]

@[simp] theorem State.migrationReset_downSent : s.migrationReset.downSent = s.downSent := by
  obtain ⟨_, _, _, _, _, h⟩ := s.migrationReset_frame
  rw [h]

@[simp] theorem State.migrationReset_pending : s.migrationReset.pending = s.pending := by
  obtain ⟨_, _, _, _, _, h⟩ := s.migrationReset_frame
  rw [h]

/-! ### takeFailure -/

/-- A failure report taken changes the table, the request unit, the migration unit and the records (R87). -/
theorem State.takeFailure_frame (r : FailureReport) :
    ∃ (t : List Entry) (q : RequestUnit) (m : MigrationUnit) (c : RecordUnit),
      s.takeFailure r = { s with table := t, req := q, mig := m, recs := c } := by
  unfold State.takeFailure
  split
  · split
    · exact s.failTarget_frame ..
    · exact ⟨_, _, _, _, rfl⟩
  · exact ⟨_, _, _, _, rfl⟩

@[simp] theorem State.takeFailure_pwrOk (r : FailureReport) : (s.takeFailure r).pwrOk = s.pwrOk := by
  obtain ⟨_, _, _, _, h⟩ := s.takeFailure_frame r
  rw [h]

@[simp] theorem State.takeFailure_prstN (r : FailureReport) : (s.takeFailure r).prstN = s.prstN := by
  obtain ⟨_, _, _, _, h⟩ := s.takeFailure_frame r
  rw [h]

@[simp] theorem State.takeFailure_fwe (r : FailureReport) : (s.takeFailure r).fwe = s.fwe := by
  obtain ⟨_, _, _, _, h⟩ := s.takeFailure_frame r
  rw [h]

@[simp] theorem State.takeFailure_fuseArray (r : FailureReport) : (s.takeFailure r).fuseArray = s.fuseArray := by
  obtain ⟨_, _, _, _, h⟩ := s.takeFailure_frame r
  rw [h]

@[simp] theorem State.takeFailure_clock (r : FailureReport) : (s.takeFailure r).clock = s.clock := by
  obtain ⟨_, _, _, _, h⟩ := s.takeFailure_frame r
  rw [h]

@[simp] theorem State.takeFailure_arb (r : FailureReport) : (s.takeFailure r).arb = s.arb := by
  obtain ⟨_, _, _, _, h⟩ := s.takeFailure_frame r
  rw [h]

@[simp] theorem State.takeFailure_watch (r : FailureReport) : (s.takeFailure r).watch = s.watch := by
  obtain ⟨_, _, _, _, h⟩ := s.takeFailure_frame r
  rw [h]

@[simp] theorem State.takeFailure_patrol (r : FailureReport) : (s.takeFailure r).patrol = s.patrol := by
  obtain ⟨_, _, _, _, h⟩ := s.takeFailure_frame r
  rw [h]

@[simp] theorem State.takeFailure_fuse (r : FailureReport) : (s.takeFailure r).fuse = s.fuse := by
  obtain ⟨_, _, _, _, h⟩ := s.takeFailure_frame r
  rw [h]

@[simp] theorem State.takeFailure_port (r : FailureReport) : (s.takeFailure r).port = s.port := by
  obtain ⟨_, _, _, _, h⟩ := s.takeFailure_frame r
  rw [h]

@[simp] theorem State.takeFailure_upSent (r : FailureReport) : (s.takeFailure r).upSent = s.upSent := by
  obtain ⟨_, _, _, _, h⟩ := s.takeFailure_frame r
  rw [h]

@[simp] theorem State.takeFailure_downSent (r : FailureReport) : (s.takeFailure r).downSent = s.downSent := by
  obtain ⟨_, _, _, _, h⟩ := s.takeFailure_frame r
  rw [h]

@[simp] theorem State.takeFailure_pending (r : FailureReport) : (s.takeFailure r).pending = s.pending := by
  obtain ⟨_, _, _, _, h⟩ := s.takeFailure_frame r
  rw [h]

/-! ### Events and commands -/

variable {s} {u : State}

/-- No event of a unit changes the port or PWR_OK. -/
theorem State.Event.port (h : s.Event u) : u.port = s.port := by cases h <;> simp

theorem State.Event.pwrOk (h : s.Event u) : u.pwrOk = s.pwrOk := by cases h <;> simp

/-- No event of a unit changes the parameter set. -/
theorem State.Event.params (h : s.Event u) : u.params = s.params := congrArg MgmtPort.params h.port

/-- No event of a unit changes the capacity, so none moves the logical limit. -/
theorem State.Event.capacity (h : s.Event u) : u.fuse.capacity = s.fuse.capacity := by
  cases h <;> simp [State.passMilliseconds_fuse, State.endVerify]

/-- A state with the same capacity has the same logical limit (R1). -/
theorem State.limit_eq (h : u.fuse.capacity = s.fuse.capacity) : u.limit = s.limit := by
  simp only [State.limit, State.capacityBlocks, h]

theorem State.Event.limit (h : s.Event u) : u.limit = s.limit := State.limit_eq h.capacity

/-- No command changes PWR_OK, PRST_N, the capacity or whether the part is READY. -/
theorem State.Commanded.pwrOk (h : s.Commanded u) : u.pwrOk = s.pwrOk := by
  cases h with
  | paramSet p v => cases p <;> rfl
  | _ => simp [State.acceptCommit]

theorem State.Commanded.prstN (h : s.Commanded u) : u.prstN = s.prstN := by
  cases h with
  | paramSet p v => cases p <;> rfl
  | _ => simp [State.acceptCommit]

theorem State.Commanded.part (h : s.Commanded u) : u.fuse.part = s.fuse.part := by
  cases h with
  | paramSet p v => cases p <;> rfl
  | _ => simp [State.acceptCommit]

theorem State.Commanded.capacity (h : s.Commanded u) : u.fuse.capacity = s.fuse.capacity := by
  cases h with
  | paramSet p v => cases p <;> rfl
  | _ => simp [State.acceptCommit]

theorem State.Commanded.limit (h : s.Commanded u) : u.limit = s.limit := State.limit_eq h.capacity

end Sys2Proof.Machine
end

section
/-! What the taking of a status report keeps: a predicate that each of its named operations keeps, it keeps as a whole. -/

namespace Sys2Proof.Machine

/-! ### The block a class serves (R6, R8) -/

/-- The logical block a class serves is a home block's own, or the one that some spare's entry serves. -/
theorem State.classify_served {s : State} {p l : Nat} (h : (s.classify p).served? = some l) :
    l < s.limit ∨ ∃ k, (entryAt s.table k).serves? = some l := by
  by_cases hp : p < s.limit
  · by_cases served : ∃ e ∈ s.table, e.serves? = some p
    · rw [State.classify_home_remapped hp served] at h
      cases h
    · push Not at served
      rw [State.classify_home_inUse hp served] at h
      cases h
      exact .inl hp
  · obtain ⟨k, rfl⟩ := Nat.exists_eq_add_of_le (Nat.not_lt.mp hp)
    rw [State.classify_spare] at h
    refine .inr ⟨k, ?_⟩
    cases he : entryAt s.table k <;> rw [he] at h <;> cases h <;> rfl

/-! ### The taking of a status report (R100 to R112) -/

/-- What a predicate P has to be kept by so that counting items into the entry at position i keeps it: E holds of every entry
written there, and C of every logical block enqueued. -/
structure KeepsReport (P : State → Prop) (E : Suspect → Prop) (C : Nat → Prop) (i : Nat) : Prop where
  hand : ∀ (u : State) (b : RecordBody) (a : Option Action) (f : Option Nat), P u → P (u.hand .watch b a f)
  firing : ∀ u : State, P u → P { u with watch := { u.watch with firings := u.watch.firings + 1 } }
  suspect : ∀ (u : State) (e : Suspect), P u → E e → P (u.setSuspect i e)
  join : ∀ (u : State) (l p : Nat), P u → C l → u.mig.holds l = false → u.mig.isFull = false →
    P (u.setMig (u.mig.join { l := l, origin := .auto p, retry := 0, enqueued := u.clock.epoch }))
  retire : ∀ (u : State) (k : Nat), P u → entryAt u.table k = .free →
    P (u.setEntry k (.retired none none false false))
  failure : ∀ (u : State) (f : FailureReport), P u → P (u.reportFailure f)
  served : ∀ (u : State) (k l : Nat), P u → (entryAt u.table k).serves? = some l → C l
  found : ∀ (u : State) (e : Suspect), P u → u.suspect? i = some e → E e
  counted : ∀ (e : Suspect) (now : Epoch) (c : LimitClass), E e → E (e.countOne now c)
  fired : ∀ (e : Suspect) (c : LimitClass), E e → E (e.setFired c)
  reset : ∀ (e : Suspect) (c : LimitClass), E e → E (e.resetCount c)
  denied : ∀ e : Suspect, E e → E { e with denied := true }

namespace KeepsReport

variable {P : State → Prop} {E : Suspect → Prop} {C : Nat → Prop} {i : Nat} (h : KeepsReport P E C i) {s : State}

include h

theorem enqueue {l p : Nat} (hs : P s) (hl : C l) : P (s.enqueue l p).2 := by
  unfold State.enqueue
  split
  · exact hs
  next free =>
    split
    · exact hs
    next room => exact h.join s l p hs hl (Bool.not_eq_true _ ▸ free) (Bool.not_eq_true _ ▸ room)

theorem fireEnqueue {c : LimitClass} {l : Nat} {e : Suspect} (hs : P s) (he : E e) (hl : C l) :
    P (s.fireEnqueue c i l e) := by
  refine h.hand _ _ _ _ (h.suspect _ _ (h.enqueue hs hl) ?_)
  split
  · exact h.denied e he
  · exact he

theorem handFiring {c : LimitClass} {e : Suspect} (hs : P s) : P (s.handFiring c e) := h.hand _ _ _ _ (h.firing s hs)

theorem enqueueOrDenied {l p : Nat} {e : Suspect} (hs : P s) (he : E e) (hl : C l) :
    P (if (s.enqueue l p).1 = .full then s.setSuspect i { e with denied := true } else (s.enqueue l p).2) := by
  split
  · exact h.suspect s _ hs (h.denied e he)
  · exact h.enqueue hs hl

theorem fireFreeSpare {k n : Nat} {e : Suspect} (hs : P s) (he : E e) : P (s.fireFreeSpare i k n e) := by
  unfold State.fireFreeSpare State.retireIfFree
  cases hk : entryAt s.table k with
  | free => exact h.hand _ _ _ _ (h.retire s k hs hk)
  | reserved l => exact h.failure s _ hs
  | soft l p => exact h.enqueueOrDenied hs he (h.served s k l hs (by rw [hk]; rfl))
  | hard l p => exact h.enqueueOrDenied hs he (h.served s k l hs (by rw [hk]; rfl))
  | retired => exact hs

theorem fireRetire {bc : BlockClass} {c : LimitClass} {e : Suspect} (hbc : ∀ l, bc.served? = some l → C l) (hs : P s)
    (he : E e) : P (s.fireRetire bc c i e) := by
  have he1 : E (e.setFired c) := h.fired e c he
  cases bc with
  | homeInUse l => exact h.fireEnqueue hs he1 (hbc l rfl)
  | servingSpare k l => exact h.fireEnqueue hs he1 (hbc l rfl)
  | freeSpare k => exact h.fireFreeSpare (h.handFiring (h.suspect s _ hs he1)) he1
  | migrationTarget k => exact h.failure _ _ (h.handFiring (h.suspect s _ hs he1))
  | homeRemapped | retiredSpare => exact h.suspect s _ hs he1

theorem afterLog {e : Suspect} (mode : RearmMode) (c : LimitClass) (he : E e) : E (e.afterLog mode c) := by
  cases mode with
  | manual => exact h.fired e c he
  | auto => exact h.reset e c he

theorem fire {bc : BlockClass} {c : LimitClass} {e : Suspect} (hbc : ∀ l, bc.served? = some l → C l) (hs : P s)
    (he : E e) : P (s.fire bc c i e) := by
  unfold State.fire
  split
  · exact h.suspect s e hs he
  · exact h.hand _ _ _ _ (h.suspect s _ hs (h.afterLog _ c he))
  · exact h.hand _ _ _ _ (h.suspect s _ hs (h.afterLog _ c he))
  · exact h.fireRetire hbc hs he

theorem countItem {bc : BlockClass} {st : ItemStatus} (hbc : ∀ l, bc.served? = some l → C l) (hs : P s) :
    P (s.countItem bc i st) := by
  unfold State.countItem
  split
  next c e _ entry =>
    have he : E (e.countOne s.clock.epoch c) := h.counted e _ c (h.found s e hs entry)
    dsimp only
    split
    · exact h.fire hbc hs he
    · exact h.suspect s _ hs he
  · exact hs

theorem countItems {bc : BlockClass} (hbc : ∀ l, bc.served? = some l → C l) (items : List (Nat × ItemStatus)) (hs : P s) :
    P (items.foldl (fun s x => s.countItem bc i x.2) s) := by
  induction items generalizing s with
  | nil => exact hs
  | cons x items ih => exact ih (h.countItem hbc hs)

omit h in
/-- A status report keeps P: as refused, by the first clause; as counted, by the entry made for it and its items (Q may say more
while they are counted). -/
theorem takeReport {r : StatusReport}
    (full : P (State.hand { s with watch := { s.watch with fullReported := true } } .watch (.suspectFull r.block)))
    (counts : ∀ i, suspectPlace s.clock.epoch s.watch.suspects r.block = some i →
      ∃ Q : State → Prop, KeepsReport Q E C i ∧
        Q (s.setSuspect i (suspectFor s.clock.epoch s.watch.suspects r.block i)) ∧ ∀ u, Q u → P u)
    (class_served : ∀ l, (s.classify r.block).served? = some l → C l) (hs : P s) : P (s.takeReport r) := by
  unfold State.takeReport
  split
  · exact hs
  · dsimp only
    split
    · exact hs
    · split
      next i place =>
        obtain ⟨Q, keeps, start, enough⟩ := counts i place
        exact enough _ (keeps.countItems class_served _ start)
      · split
        · exact hs
        · exact full

end KeepsReport

/-- A predicate blind to the error watch unit and the records is kept by a status report, if the enqueues, the retirement of a free
spare and the failure reports keep it. -/
theorem takeReport_keeps {P : State → Prop} {C : Nat → Prop} {s : State} {r : StatusReport}
    (watch : ∀ (u : State) (w : WatchUnit), P u → P { u with watch := w })
    (recs : ∀ (u : State) (c : RecordUnit), P u → P { u with recs := c })
    (join : ∀ (u : State) (l p : Nat), P u → C l → u.mig.holds l = false → u.mig.isFull = false →
      P (u.setMig (u.mig.join { l := l, origin := .auto p, retry := 0, enqueued := u.clock.epoch })))
    (retire : ∀ (u : State) (k : Nat), P u → entryAt u.table k = .free →
      P (u.setEntry k (.retired none none false false)))
    (failure : ∀ (u : State) (f : FailureReport), P u → P (u.reportFailure f))
    (served : ∀ (u : State) (k l : Nat), P u → (entryAt u.table k).serves? = some l → C l)
    (home : ∀ l < s.limit, C l) (hs : P s) : P (s.takeReport r) := by
  refine KeepsReport.takeReport (E := fun _ => True) (C := C) (recs _ _ (watch s _ hs))
    (fun i _ => ⟨P, ?_, watch s _ hs, fun _ h => h⟩) ?_ hs
  · exact {
      hand := fun u _ _ _ hu => recs u _ hu
      firing := fun u hu => watch u _ hu
      suspect := fun u _ hu _ => watch u _ hu
      join, retire, failure, served
      found := fun _ _ _ _ => trivial
      counted := fun _ _ _ _ => trivial
      fired := fun _ _ _ => trivial
      reset := fun _ _ _ => trivial
      denied := fun _ _ => trivial }
  · intro l hl
    obtain hl | ⟨k, hk⟩ := State.classify_served hl
    · exact home l hl
    · exact served s k l hs hk

end Sys2Proof.Machine
end

section
/-! The laws of the record unit (R135, R145): every event but the taking of a record hands records at most, and a record taken or
acknowledged keeps the laws. -/

namespace Sys2Proof.Machine

/-- From s to u records have been handed, and the record unit is otherwise as it was (R137). -/
def State.handsOn (s u : State) : Prop := ∃ hs, u.recs = { s.recs with handed := s.recs.handed ++ hs }

namespace State.handsOn

variable {s u v : State}

theorem of_eq (h : u.recs = s.recs) : s.handsOn u := ⟨[], by rw [h, List.append_nil]⟩

theorem refl (s : State) : s.handsOn s := of_eq rfl

theorem trans (h : s.handsOn u) (h' : u.handsOn v) : s.handsOn v := by
  obtain ⟨hs, h⟩ := h
  obtain ⟨hs', h'⟩ := h'
  exact ⟨hs ++ hs', by rw [h', h, List.append_assoc]⟩

/-- A change that leaves the record unit alone may follow. -/
theorem then_eq (h : s.handsOn u) (e : v.recs = u.recs) : s.handsOn v := h.trans (of_eq e)

theorem hand (h : s.handsOn u) (p : Producer) (b : RecordBody) (a : Option Action) (f : Option Nat) :
    s.handsOn (u.hand p b a f) :=
  h.trans ⟨_, rfl⟩

end State.handsOn

variable {s : State}

theorem requestResponse_handsOn (k : Nat) (t : Tag) (e : OutEntry) (a : Answer) :
    s.handsOn (requestResponse k t e a s) := by
  unfold requestResponse
  split
  · exact .refl s
  · dsimp only
    split
    · exact .of_eq (by simp)
    · split
      · exact State.handsOn.hand (.of_eq (by simp)) ..
      · exact .of_eq (by simp)

theorem State.commitMove_handsOn (m : Move) : s.handsOn (s.commitMove m) :=
  State.handsOn.then_eq (State.handsOn.hand (.of_eq (by simp)) ..) rfl

theorem State.retryDecision_handsOn (r : RetireRequest) : s.handsOn (s.retryDecision r) := by
  unfold State.retryDecision
  split
  · exact State.handsOn.hand (.refl s) ..
  · exact .of_eq rfl

theorem State.failTarget_handsOn (m : Move) (lock : Option Lock) (cause : TargetCause) (firing : Option Nat) :
    s.handsOn (s.failTarget m lock cause firing) := by
  have bad : s.handsOn (((s.releaseLock lock).retireTarget m.target).hand .migration
      (.targetBad m.req.l m.target cause) none firing) := State.handsOn.hand (.of_eq (by simp)) ..
  exact (bad.trans (State.retryDecision_handsOn m.req)).then_eq rfl

theorem State.stopMove_handsOn (m : Move) (lock : Option Lock) (record : RecordBody) :
    s.handsOn (s.stopMove m lock record) :=
  State.handsOn.hand (.of_eq (by simp)) ..

theorem State.tryCommit_handsOn : s.handsOn s.tryCommit := by
  unfold State.tryCommit
  split
  · split
    · exact .refl s
    · exact State.commitMove_handsOn _
  · exact .refl s

theorem State.writeRemoved_handsOn (e : OutEntry) : s.handsOn (s.writeRemoved e) := by
  unfold State.writeRemoved
  split
  · split
    · split
      · exact .of_eq (by simp)
      · exact .refl s
    · split
      · exact State.tryCommit_handsOn
      · exact .refl s
    · exact .refl s
  · exact .refl s

theorem State.handPoison_handsOn (l p source : Nat) (buffer : List WriteLine) :
    s.handsOn (s.handPoison l p source buffer) := by
  unfold State.handPoison
  generalize buffer.zipIdx = lines
  induction lines generalizing s with
  | nil => exact .refl s
  | cons x lines ih =>
    refine State.handsOn.trans ?_ ih
    dsimp only
    split
    · exact State.handsOn.hand (.refl s) ..
    · exact .refl s

theorem State.copyRead_handsOn (m : Move) (p : Nat) (a : Answer) : s.handsOn (s.copyRead m p a) :=
  (State.handPoison_handsOn ..).then_eq rfl

theorem State.copyWritten_handsOn (m : Move) (p : Nat) : s.handsOn (s.copyWritten m p) := by
  unfold State.copyWritten
  split
  · exact .of_eq rfl
  · exact State.handsOn.trans (.of_eq rfl) State.tryCommit_handsOn

theorem copyResponse_handsOn (t : Tag) (a : Answer) : s.handsOn (copyResponse t a s) := by
  unfold copyResponse
  split
  · split
    · exact State.copyRead_handsOn ..
    · exact .refl s
  · split
    · split
      · exact State.failTarget_handsOn ..
      · exact State.copyWritten_handsOn ..
    · exact .refl s
  · exact .refl s

theorem State.patrolRetire_handsOn (k : Nat) : s.handsOn (s.patrolRetire k) := by
  unfold State.patrolRetire State.retireIfFree
  cases entryAt s.table k with
  | free => exact State.handsOn.hand (.of_eq rfl) ..
  | reserved | soft | hard | retired => exact .refl s

theorem patrolResponse_handsOn (t : Tag) (a : Answer) : s.handsOn (patrolResponse t a s) := by
  unfold patrolResponse
  split
  · split
    · split
      · exact (State.patrolRetire_handsOn _).then_eq (State.endPatrolRead_recs _)
      · exact .of_eq (State.endPatrolRead_recs s)
    · exact .refl s
  · exact .refl s

theorem State.route_handsOn (t : Tag) (e : OutEntry) (a : Answer) : s.handsOn (s.route t e a) := by
  unfold State.route
  split
  · exact requestResponse_handsOn ..
  · exact copyResponse_handsOn ..
  · exact patrolResponse_handsOn ..

theorem State.takeReport_handsOn (r : StatusReport) : s.handsOn (s.takeReport r) :=
  KeepsReport.takeReport (P := s.handsOn) (E := fun _ => True) (C := fun _ => True)
    (State.handsOn.hand (.of_eq rfl) ..)
    (fun _ _ => ⟨s.handsOn, {
        hand := fun _ b a f hu => hu.hand .watch b a f
        firing := fun _ hu => hu.then_eq rfl
        suspect := fun _ _ hu _ => hu.then_eq rfl
        join := fun _ _ _ hu _ _ _ => hu.then_eq rfl
        retire := fun _ _ hu _ => hu.then_eq rfl
        failure := fun _ _ hu => hu.then_eq rfl
        served := fun _ _ _ _ _ => trivial
        found := fun _ _ _ _ => trivial
        counted := fun _ _ _ _ => trivial
        fired := fun _ _ _ => trivial
        reset := fun _ _ _ => trivial
        denied := fun _ _ => trivial }, .of_eq rfl, fun _ h => h⟩)
    (fun _ _ => trivial) (.refl s)

theorem State.reportStatuses_handsOn (e : OutEntry) (a : Answer) (first : Bool) :
    s.handsOn (s.reportStatuses e a first) := by
  unfold State.reportStatuses
  split
  · split
    · exact State.takeReport_handsOn _
    · exact .of_eq rfl
  · exact .refl s

theorem State.startRequest_handsOn (i : Nat) (r : RetireRequest) : s.handsOn (s.startRequest i r) := by
  unfold State.startRequest
  dsimp only
  split
  · exact .of_eq rfl
  · split
    · exact State.handsOn.then_eq (State.handsOn.hand (.of_eq rfl) ..) rfl
    · exact State.handsOn.hand (.of_eq rfl) ..

theorem State.migrationReset_handsOn : s.handsOn s.migrationReset := by
  unfold State.migrationReset
  split
  · exact .refl s
  · exact (State.stopMove_handsOn ..).then_eq rfl
  · exact State.commitMove_handsOn _

theorem State.takeFailure_handsOn (r : FailureReport) : s.handsOn (s.takeFailure r) := by
  unfold State.takeFailure
  split
  · split
    · exact State.failTarget_handsOn ..
    · exact .refl s
  · exact .refl s

/-- Every event but the taking of a record hands records at most (R137). -/
theorem State.Event.handsOn {u : State} (h : s.Event u) :
    s.handsOn u ∨ ∃ k x, s.recs.handed[k]? = some x ∧ u = { s with recs := s.recsTaking k x } := by
  cases h with
  | recordTaken k x handed => exact .inr ⟨k, x, handed, rfl⟩
  | nothing | passes | ready | rise | overrun | rejected | credits | startEventSpent | gapExpired | offered | skipped
  | decayed | fweChanged | bitReported | markerReported | readyReleased | riseReleased => exact .inl (.of_eq rfl)
  | fall =>
    exact .inl (State.handsOn.trans (u := { s with
      prstN := false, req := s.req.emptied, arb := s.arb.inReset, patrol := { s.patrol with state := .off } })
      (.of_eq rfl) State.migrationReset_handsOn)
  | accepted | grant | claimed | drained => exact .inl (.of_eq (by simp))
  | response tag e a first =>
    have removed : s.handsOn (s.removeTag tag) := .of_eq rfl
    exact .inl (((removed.trans (State.reportStatuses_handsOn e a first)).trans
      (State.route_handsOn tag e a)).trans (State.writeRemoved_handsOn e))
  | report k r =>
    have left : s.handsOn { s with watch := { s.watch with reports := s.watch.reports.eraseIdx k } } := .of_eq rfl
    exact .inl (left.trans (State.takeReport_handsOn r))
  | failure k r =>
    have left : s.handsOn (s.setMig { s.mig with failures := s.mig.failures.eraseIdx k }) := .of_eq rfl
    exact .inl (left.trans (State.takeFailure_handsOn r))
  | started => exact .inl (State.startRequest_handsOn ..)
  | committed => exact .inl State.tryCommit_handsOn
  | copyReadTimeout m p c =>
    have passed : s.handsOn (s.advanceTo c.deadline) := .of_eq rfl
    exact .inl ((passed.trans (State.stopMove_handsOn ..)).then_eq rfl)
  | copyWriteTimeout m p b c =>
    have passed : s.handsOn (s.advanceTo c.deadline) := .of_eq rfl
    exact .inl (passed.trans (State.failTarget_handsOn ..))
  | orphaned | heldTimeout => exact .inl (State.handsOn.hand (.of_eq rfl) ..)
  | queuedTimeout => exact .inl (State.handsOn.then_eq (State.handsOn.hand (.of_eq rfl) ..) (State.testIfNewHead_recs ..))
  | heldTimeoutUnstalls => exact .inl (State.handsOn.then_eq (State.handsOn.hand (.of_eq rfl) ..) (State.headTested_recs _))
  | patrolTimeout => exact .inl (State.handsOn.then_eq (State.handsOn.hand (.of_eq rfl) ..) (State.endPatrolRead_recs _))
  | ticksAndDecayed | ticks => exact .inl (.of_eq (s.passMilliseconds_recs _))
  | verified => exact .inl (State.handsOn.hand (.of_eq rfl) ..)

/-- Every command but ACK_FAULTS hands records at most. -/
theorem State.Commanded.handsOn {u : State} (h : s.Commanded u) :
    s.handsOn u ∨ ∃ i, u = { s with recs := s.recs.removeThrough i } := by
  cases h with
  | acknowledged i => exact .inr ⟨i, rfl⟩
  | unchanged | mapped | unmapped | banned | retiring | cancelled | rearmed | committing => exact .inl (.of_eq rfl)
  | cleared => exact .inl (.of_eq (by simp))
  | paramSet p v => exact .inl (.of_eq (by cases p <;> rfl))
  | aborted => exact .inl ((State.stopMove_handsOn ..).then_eq rfl)

/-- A law of the record unit that a power-on value satisfies, that handing records keeps, and that taking one record and an
acknowledgement keep, is kept by every step. -/
theorem KeptByParts.of_recs {L : RecordUnit → Prop}
    (handed : ∀ (r : RecordUnit) (hs : List Handed), L r → L { r with handed := hs })
    (start : L { queue := [], nextSeq := 0#16, missed := 0, alertMissed := false, alertLow := false, handed := [] })
    (taken : ∀ (r : RecordUnit) (kinds : BitVec 16) (epoch : Epoch) (h : Handed), L r → L (r.take kinds epoch h))
    (acknowledged : ∀ (r : RecordUnit) (i : Nat), L r → L (r.removeThrough i)) : KeptByParts fun s => L s.recs where
  pending := fun _ _ h => h
  port := fun _ _ _ h => h
  powerOn := fun _ _ _ _ _ => handed _ _ start
  powerLoss := fun _ _ _ => start
  event := fun s u _ hs h => by
    obtain ⟨hs', he⟩ | ⟨k, x, -, rfl⟩ := h.handsOn
    · rw [he]; exact handed _ _ hs
    · exact taken _ _ _ _ (handed _ _ hs)
  command := fun s u hs h => by
    obtain ⟨hs', he⟩ | ⟨i, rfl⟩ := h.handsOn
    · rw [he]; exact handed _ _ hs
    · exact acknowledged _ _ hs

/-! ### ALERT_N (R145) -/

/-- ALERT_N is driven as the queue and the alert-missed flag call for. -/
def RecordUnit.Drives (r : RecordUnit) : Prop := r.alertLow = alertDrive r.queue r.alertMissed

theorem alertLaw_iff : AlertLaw s ↔ s.recs.Drives := by
  rw [AlertLaw, ← alertDrive_eq_true]
  exact Bool.eq_iff_iff.symm

theorem alertLaw_kept : KeptByParts AlertLaw := by
  have law : AlertLaw = fun s => RecordUnit.Drives s.recs := funext fun s => propext alertLaw_iff
  rw [law]
  exact .of_recs (fun _ _ h => h) rfl (fun _ kinds epoch x _ => RecordUnit.take_alertLow kinds epoch x) fun _ _ _ => rfl

/-! ### The fault record queue (R135) -/

/-- At most 64 records with consecutive sequence numbers, the newest one below the next (R135). -/
def RecordUnit.InOrder (r : RecordUnit) : Prop :=
  r.queue.length ≤ 64 ∧ r.missed ≤ 255 ∧
    r.queue.map (·.seq) = (List.range r.queue.length).map fun i => r.nextSeq - BitVec.ofNat 16 (r.queue.length - i)

theorem RecordUnit.InOrder.store {r : RecordUnit} (h : r.InOrder) (room : r.queue.length < 64) (kinds : BitVec 16)
    (epoch : Epoch) (x : Handed) : (r.store kinds epoch x).InOrder := by
  obtain ⟨-, -, seqs⟩ := h
  refine ⟨?_, Nat.zero_le _, ?_⟩
  · simp only [RecordUnit.store, List.length_append, List.length_singleton]
    omega
  · simp only [RecordUnit.store, List.map_append, seqs, List.length_append, List.length_singleton, List.range_succ,
      List.map_singleton, Nat.add_sub_cancel_left]
    congr 1
    · refine List.map_congr_left fun i hi => ?_
      have later : r.queue.length + 1 - i = (r.queue.length - i) + 1 := by
        have := List.mem_range.mp hi
        omega
      rw [later, BitVec.ofNat_add]
      ring
    · simp

theorem RecordUnit.InOrder.drop {r : RecordUnit} (h : r.InOrder) (kinds : BitVec 16) (x : Handed) :
    (r.drop kinds x).InOrder := by
  obtain ⟨length, -, seqs⟩ := h
  exact ⟨length, Nat.min_le_left .., seqs⟩

theorem RecordUnit.InOrder.take {r : RecordUnit} (h : r.InOrder) (kinds : BitVec 16) (epoch : Epoch) (x : Handed) :
    (r.take kinds epoch x).InOrder := by
  rcases Nat.lt_or_ge r.queue.length 64 with room | full
  · rw [RecordUnit.take_of_room kinds epoch x room]
    exact h.store room kinds epoch x
  · rw [RecordUnit.take_of_full kinds epoch x full]
    exact h.drop kinds x

/-- The records left after the first ones are removed are still in order. -/
theorem RecordUnit.InOrder.removeThrough {r : RecordUnit} (h : r.InOrder) (i : Nat) : (r.removeThrough i).InOrder := by
  obtain ⟨length, missed, seqs⟩ := h
  refine ⟨?_, missed, ?_⟩
  · simp only [RecordUnit.removeThrough, List.length_drop]
    omega
  · simp only [RecordUnit.removeThrough, List.map_drop, seqs, List.length_drop]
    refine List.ext_getElem (by simp) fun j h1 h2 => ?_
    simp only [List.getElem_drop, List.getElem_map, List.getElem_range]
    congr 2
    omega

theorem queueLaw_kept : KeptByParts QueueLaw :=
  .of_recs (L := RecordUnit.InOrder) (fun _ _ h => h) ⟨by decide, by decide, rfl⟩
    (fun _ kinds epoch x h => h.take kinds epoch x) fun _ i h => h.removeThrough i

end Sys2Proof.Machine
end

section
/-! The laws of the error watch unit (R98, R99): which operations reach it, and what each keeps. -/

namespace Sys2Proof.Machine

/-! ### The operations that reach the error watch unit -/

/-- What a law of the error watch unit, for a decay period of n, has to be kept by so that every step keeps it. -/
structure KeptInWatch (L : Nat → WatchUnit → Prop) : Prop where
  start : L Params.defaults.decayPeriod
    { suspects := List.replicate Config.suspectPositions none, fullReported := false, decayCount := 0, decayDue := false,
      reports := [], firings := 0 }
  free : ∀ (n : Nat) (w : WatchUnit) (i : Nat), L n w →
    L n { w with suspects := w.suspects.set i none, fullReported := false }
  deny : ∀ (n : Nat) (w : WatchUnit) (p : Nat), L n w → L n { w with suspects := markDeniedIn w.suspects p }
  reports : ∀ (n : Nat) (w : WatchUnit) (rs : List StatusReport), L n w → L n { w with reports := rs }
  report : ∀ (n : Nat) (s : State) (r : StatusReport), L n s.watch → L n (s.takeReport r).watch
  decay : ∀ (n : Nat) (w : WatchUnit), L n w → L n w.decay
  ticks : ∀ (n : Nat) (w : WatchUnit) (d : Nat), L n w → L n (w.pass (n * 100) d)
  period : ∀ (n m : Nat) (w : WatchUnit), L n w → L m { w.takeDue with decayCount := 0 }
  rearm : ∀ (n : Nat) (w : WatchUnit) (i : Nat) (e : Suspect), w.suspects.getD i none = some e → L n w →
    L n { w with suspects := w.suspects.set i (some e.rearmed) }

namespace KeptInWatch

variable {L : Nat → WatchUnit → Prop} (h : KeptInWatch L) {s : State} {n : Nat}

include h

theorem freeSuspect {p : Nat} (hs : L n s.watch) : L n (s.freeSuspect p).watch := by
  unfold State.freeSuspect
  split
  · exact h.free n _ _ hs
  · exact hs

theorem commitMove {m : Move} (hs : L n s.watch) : L n (s.commitMove m).watch :=
  h.freeSuspect (s := { s with table := commitTable s.limit s.table m }) hs

theorem tryCommit (hs : L n s.watch) : L n s.tryCommit.watch := by
  unfold State.tryCommit
  split
  · split
    · exact hs
    · exact h.commitMove hs
  · exact hs

theorem writeRemoved {e : OutEntry} (hs : L n s.watch) : L n (s.writeRemoved e).watch := by
  unfold State.writeRemoved
  split
  · split
    · split
      · rwa [State.tryRead_watch]
      · exact hs
    · split
      · exact h.tryCommit hs
      · exact hs
    · exact hs
  · exact hs

theorem copyResponse {t : Tag} {a : Answer} (hs : L n s.watch) : L n (copyResponse t a s).watch := by
  unfold Machine.copyResponse
  split
  · split
    · rwa [State.copyRead_watch]
    · exact hs
  · split
    · split
      · rwa [State.failTarget_watch]
      · unfold State.copyWritten
        split
        · exact hs
        · exact h.tryCommit hs
    · exact hs
  · exact hs

theorem route {t : Tag} {e : OutEntry} {a : Answer} (hs : L n s.watch) : L n (s.route t e a).watch := by
  unfold State.route
  split
  · rwa [requestResponse_watch]
  · exact h.copyResponse hs
  · rwa [patrolResponse_watch]

theorem reportStatuses {e : OutEntry} {a : Answer} {first : Bool} (hs : L n s.watch) :
    L n (s.reportStatuses e a first).watch := by
  unfold State.reportStatuses
  split
  · split
    · exact h.report n s _ hs
    · exact h.reports n _ _ hs
  · exact hs

theorem startRequest {i : Nat} {r : RetireRequest} (hs : L n s.watch) : L n (s.startRequest i r).watch := by
  unfold State.startRequest
  dsimp only
  split
  · exact hs
  · split
    · exact h.deny n _ _ hs
    · exact hs

theorem migrationReset (hs : L n s.watch) : L n s.migrationReset.watch := by
  unfold State.migrationReset
  split
  · exact hs
  · simpa using hs
  · exact h.commitMove hs

omit h in
theorem takeFailure {r : FailureReport} (hs : L n s.watch) : L n (s.takeFailure r).watch := by
  unfold State.takeFailure
  split
  · split
    · rwa [State.failTarget_watch]
    · exact hs
  · exact hs

/-- Every event keeps the law, for the parameter set as it stands. -/
theorem event {u : State} (hu : s.Event u) (hs : L s.params.decayPeriod s.watch) : L s.params.decayPeriod u.watch := by
  cases hu with
  | nothing | passes | ready | rise | overrun | rejected | credits | startEventSpent | gapExpired | offered | skipped
  | fweChanged | bitReported | markerReported | readyReleased | riseReleased | recordTaken | verified | orphaned
  | heldTimeout => exact hs
  | accepted | grant | claimed | drained | copyReadTimeout | copyWriteTimeout | queuedTimeout | heldTimeoutUnstalls
  | patrolTimeout => simpa using hs
  | fall => exact h.migrationReset hs
  | response => exact h.writeRemoved (h.route (h.reportStatuses hs))
  | report k r => exact h.report _ _ r (h.reports _ _ _ hs)
  | failure k r => exact takeFailure hs
  | started => exact h.startRequest hs
  | committed => exact h.tryCommit hs
  | decayed => exact h.decay _ _ hs
  | ticks d =>
    rw [State.passMilliseconds_watch]
    exact h.ticks _ _ d hs
  | ticksAndDecayed d =>
    dsimp only
    rw [State.passMilliseconds_watch]
    exact h.decay _ _ (h.ticks _ _ d hs)

theorem keptByParts : KeptByParts fun s => L s.params.decayPeriod s.watch where
  pending := fun _ _ hs => hs
  port := fun s p hp hs => by
    have : State.params { s with port := p } = s.params := hp
    rwa [this]
  powerOn := fun _ _ _ _ _ => h.start
  powerLoss := fun _ _ _ => h.start
  event := fun s u _ hs hu => by
    rw [hu.params]
    exact h.event hu hs
  command := fun s u hs hu => by
    cases hu with
    | unchanged | mapped | unmapped | banned | retiring | cancelled | acknowledged | committing => exact hs
    | paramSet p v =>
      cases p with
      | decayPeriod => exact h.period _ _ _ hs
      | _ => exact hs
    | aborted =>
      have : L s.params.decayPeriod s.watch := hs
      simpa [State.params] using this
    | cleared p =>
      have : (s.freeSuspect p).params = s.params := by simp [State.params]
      rw [this]
      exact h.freeSuspect hs
    | rearmed i e entry => exact h.rearm _ _ i e entry hs

end KeptInWatch

end Sys2Proof.Machine
end

section
/-! The suspect table and the decay timer under every step (R98, R99). -/

namespace Sys2Proof.Machine

/-! ### The suspect table (R99) -/

/-- 32 positions, no block named at two of them, and counts of at most 255 (R99). -/
structure SuspectTable (t : List (Option Suspect)) : Prop where
  length : t.length = 32
  oneEach : ∀ (i j : Nat) (e f : Suspect), t[i]? = some (some e) → t[j]? = some (some f) → e.block = f.block → i = j
  counts : ∀ (i : Nat) (e : Suspect), t[i]? = some (some e) → e.ce ≤ 255 ∧ e.ue ≤ 255

/-- No block is named twice exactly when two positions that name one block are one position. -/
theorem WatchUnit.blocks_nodup_iff {w : WatchUnit} :
    w.blocks.Nodup ↔ ∀ (i j : Nat) (e f : Suspect), w.suspects[i]? = some (some e) → w.suspects[j]? = some (some f) →
      e.block = f.block → i = j := by
  constructor
  · intro nodup i j e f he hf same
    have hi := suspectPos_of_nodup nodup he same
    rw [suspectPos_of_nodup nodup hf rfl] at hi
    exact (Option.some.inj hi).symm
  · intro one
    refine List.pairwise_filterMap.mpr (List.pairwise_iff_getElem.mpr fun i j hi hj lt p hp q hq same => ?_)
    obtain ⟨e, he, rfl⟩ := Option.map_eq_some_iff.mp hp
    obtain ⟨f, hf, rfl⟩ := Option.map_eq_some_iff.mp hq
    have := one i j e f (by rw [List.getElem?_eq_getElem hi, he]) (by rw [List.getElem?_eq_getElem hj, hf]) same
    omega

theorem suspectLaw_iff {s : State} : SuspectLaw s ↔ SuspectTable s.watch.suspects := by
  have counts : (∀ x ∈ s.watch.suspects, ∀ e ∈ x, e.ce ≤ 255 ∧ e.ue ≤ 255) ↔
      ∀ (i : Nat) (e : Suspect), s.watch.suspects[i]? = some (some e) → e.ce ≤ 255 ∧ e.ue ≤ 255 := by
    constructor
    · exact fun all i e he => all (some e) (List.mem_of_getElem? he) e rfl
    · intro all x hx e he
      obtain ⟨i, hi⟩ := List.mem_iff_getElem?.mp hx
      exact all i e (by rw [hi, Option.mem_def.mp he])
  rw [SuspectLaw, WatchUnit.blocks_nodup_iff, counts]
  exact ⟨fun ⟨length, oneEach, counts⟩ => ⟨length, oneEach, counts⟩, fun h => ⟨h.length, h.oneEach, h.counts⟩⟩

namespace SuspectTable

variable {t : List (Option Suspect)} (h : SuspectTable t)

include h

/-- A change made to each entry on its own keeps the law, if it keeps the entry's block and raises no count. -/
theorem map {f : Option Suspect → Option Suspect} (empty : f none = none)
    (lower : ∀ e e', f (some e) = some e' → e'.block = e.block ∧ e'.ce ≤ e.ce ∧ e'.ue ≤ e.ue) :
    SuspectTable (t.map f) := by
  have source : ∀ (i : Nat) (e : Suspect), (t.map f)[i]? = some (some e) →
      ∃ d, t[i]? = some (some d) ∧ e.block = d.block ∧ e.ce ≤ d.ce ∧ e.ue ≤ d.ue := by
    intro i e he
    rw [List.getElem?_map] at he
    obtain ⟨x, hx, hfx⟩ := Option.map_eq_some_iff.mp he
    cases x with
    | none => rw [empty] at hfx; cases hfx
    | some d => exact ⟨d, hx, lower d e hfx⟩
  refine ⟨by rw [List.length_map, h.length], fun i j e f he hf same => ?_, fun i e he => ?_⟩
  · obtain ⟨d, hd, bd, -⟩ := source i e he
    obtain ⟨d', hd', bd', -⟩ := source j f hf
    exact h.oneEach i j d d' hd hd' (by rw [← bd, same, bd'])
  · obtain ⟨d, hd, -, ce, ue⟩ := source i e he
    have := h.counts i d hd
    exact ⟨ce.trans this.1, ue.trans this.2⟩

/-- Freeing a position keeps the law. -/
theorem set_none (i : Nat) : SuspectTable (t.set i none) := by
  have kept : ∀ (j : Nat) (e : Suspect), (t.set i none)[j]? = some (some e) → t[j]? = some (some e) := by
    intro j e he
    rw [List.getElem?_set] at he
    split at he
    · split at he <;> cases he
    · exact he
  exact ⟨by rw [List.length_set, h.length], fun j k e f he hf => h.oneEach j k e f (kept j e he) (kept k f hf),
    fun j e he => h.counts j e (kept j e he)⟩

/-- Writing an entry keeps the law, if no other position names its block and its counts are in range. -/
theorem set_some {i : Nat} {e : Suspect} (other : ∀ (j : Nat) (f : Suspect), j ≠ i → t[j]? = some (some f) → f.block ≠ e.block)
    (counts : e.ce ≤ 255 ∧ e.ue ≤ 255) : SuspectTable (t.set i (some e)) := by
  have found : ∀ (j : Nat) (f : Suspect), (t.set i (some e))[j]? = some (some f) →
      (j = i ∧ f = e) ∨ (j ≠ i ∧ t[j]? = some (some f)) := by
    intro j f hf
    rw [List.getElem?_set] at hf
    split at hf
    next ij =>
      split at hf
      · cases hf; exact .inl ⟨ij.symm, rfl⟩
      · cases hf
    next ij => exact .inr ⟨Ne.symm ij, hf⟩
  refine ⟨by rw [List.length_set, h.length], fun j k f g hf hg same => ?_, fun j f hf => ?_⟩
  · obtain ⟨rfl, rfl⟩ | ⟨nj, hf'⟩ := found j f hf
    · obtain ⟨rfl, rfl⟩ | ⟨nk, hg'⟩ := found k g hg
      · rfl
      · exact absurd same.symm (other k g nk hg')
    · obtain ⟨rfl, rfl⟩ | ⟨nk, hg'⟩ := found k g hg
      · exact absurd same (other j f nj hf')
      · exact h.oneEach j k f g hf' hg' same
  · obtain ⟨-, rfl⟩ | ⟨-, hf⟩ := found j f hf
    · exact counts
    · exact h.counts j f hf

/-- A block's place is its entry's, or no other position names the block (R102). -/
theorem place_unique {now : Epoch} {p i : Nat} (place : suspectPlace now t p = some i) :
    ∀ (j : Nat) (f : Suspect), j ≠ i → t[j]? = some (some f) → f.block ≠ p := by
  intro j f ne hf same
  unfold suspectPlace at place
  split at place
  next k hk =>
    cases place
    obtain ⟨lt, names, -⟩ := List.findIdx?_eq_some_iff_getElem.mp hk
    cases he : t[i] with
    | none => rw [he] at names; cases names
    | some e =>
      rw [he] at names
      exact ne (h.oneEach j i f e hf (by rw [List.getElem?_eq_getElem lt, he]) (same.trans (beq_iff_eq.mp names).symm))
  next hn =>
    have := List.findIdx?_eq_none_iff.mp hn _ (List.mem_of_getElem? hf)
    exact absurd (beq_iff_eq.mpr same) (by simpa using this)

omit h in
/-- The entry a report is counted into has the counts of the one found, or none (R102). -/
theorem suspectFor_counts (h : SuspectTable t) (now : Epoch) (p i : Nat) :
    (suspectFor now t p i).ce ≤ 255 ∧ (suspectFor now t p i).ue ≤ 255 := by
  have fresh : (newSuspect p now).ce ≤ 255 ∧ (newSuspect p now).ue ≤ 255 := ⟨Nat.zero_le _, Nat.zero_le _⟩
  unfold suspectFor
  split
  next e he =>
    split
    · refine h.counts i e ?_
      rw [List.getD_eq_getElem?_getD] at he
      cases ht : t[i]? with
      | none => rw [ht] at he; cases he
      | some x => rw [ht] at he; exact congrArg some he
    · exact fresh
  · exact fresh

end SuspectTable

/-! ### Counting into one position (R105) -/

/-- An entry for block p with counts in range. -/
def Suspect.isFor (e : Suspect) (p : Nat) : Prop := e.block = p ∧ e.ce ≤ 255 ∧ e.ue ≤ 255

/-- From the table t only position i has been written, by an entry for block p with counts in range. -/
def State.countedInto (t : List (Option Suspect)) (i p : Nat) (u : State) : Prop :=
  ∃ e, Suspect.isFor e p ∧ u.watch.suspects = t.set i (some e)

/-- Counting items into position i writes that position alone, by entries for the block of the one there. -/
theorem State.countedInto_keepsReport {t : List (Option Suspect)} {i : Nat} (hi : i < t.length) (p : Nat) :
    KeepsReport (State.countedInto t i p) (·.isFor p) (fun _ => True) i where
  hand := fun _ _ _ _ hu => hu
  firing := fun _ hu => hu
  suspect := fun u e ⟨_, _, hu⟩ he => ⟨e, he, by rw [State.setSuspect_watch, hu, List.set_set]⟩
  join := fun _ _ _ hu _ _ _ => hu
  retire := fun _ _ hu _ => hu
  failure := fun _ _ hu => hu
  served := fun _ _ _ _ _ => trivial
  found := fun u e ⟨f, hf, hu⟩ he => by
    rw [State.suspect?, hu, List.getD_eq_getElem?_getD, List.getElem?_set_self hi] at he
    cases he
    exact hf
  counted := fun e now c ⟨block, ce, ue⟩ => by
    cases c
    · exact ⟨block, Nat.min_le_left .., ue⟩
    · exact ⟨block, ce, Nat.min_le_left ..⟩
  fired := fun e c he => by cases c <;> exact he
  reset := fun e c ⟨block, ce, ue⟩ => by
    cases c
    · exact ⟨block, Nat.zero_le _, ue⟩
    · exact ⟨block, ce, Nat.zero_le _⟩
  denied := fun _ he => he

/-- Taking a report keeps the law: only the report's own position is written, by entries for its block. -/
theorem SuspectTable.takeReport {s : State} (h : SuspectTable s.watch.suspects) (r : StatusReport) :
    SuspectTable (s.takeReport r).watch.suspects := by
  refine KeepsReport.takeReport (P := fun u => SuspectTable u.watch.suspects) (E := (·.isFor r.block))
    (C := fun _ => True) h (fun i place => ?_)
    (fun _ _ => trivial) h
  refine ⟨_, State.countedInto_keepsReport (suspectPlace_lt place) r.block,
    ⟨_, ⟨suspectFor_block .., h.suspectFor_counts ..⟩, rfl⟩, ?_⟩
  rintro u ⟨e, ⟨block, counts⟩, hu⟩
  rw [hu]
  exact h.set_some (fun j f ne hf => block ▸ h.place_unique place j f ne hf) counts

/-- A decay expiry keeps the law: it halves counts and frees positions (R113). -/
theorem SuspectTable.decay {w : WatchUnit} (h : SuspectTable w.suspects) : SuspectTable w.decay.suspects := by
  refine h.map rfl fun e e' he => ?_
  unfold decayEntry at he
  dsimp only at he
  split at he
  · cases he
  · cases he
    exact ⟨rfl, Nat.div_le_self .., le_refl _⟩

theorem SuspectTable.decays {w : WatchUnit} (h : SuspectTable w.suspects) (n : Nat) :
    SuspectTable (w.decays n).suspects := by
  induction n generalizing w with
  | zero => exact h
  | succ n ih => exact ih h.decay

theorem SuspectTable.takeDue {w : WatchUnit} (h : SuspectTable w.suspects) : SuspectTable w.takeDue.suspects := by
  unfold WatchUnit.takeDue
  split
  · exact h.decay
  · exact h

theorem SuspectTable.pass {w : WatchUnit} (h : SuspectTable w.suspects) (period d : Nat) :
    SuspectTable (w.pass period d).suspects := by
  unfold WatchUnit.pass
  split
  · exact h
  · split
    · exact h
    · exact h.takeDue.decays _

theorem suspectTable_kept : KeptInWatch fun _ w => SuspectTable w.suspects where
  start := ⟨rfl, fun _ _ _ _ he => absurd (List.eq_of_mem_replicate (List.mem_of_getElem? he)) nofun,
    fun _ _ he => absurd (List.eq_of_mem_replicate (List.mem_of_getElem? he)) nofun⟩
  free := fun _ _ i h => h.set_none i
  deny := fun _ _ p h => h.map rfl fun e e' he => by
    cases he
    dsimp only
    split <;> exact ⟨rfl, le_refl _, le_refl _⟩
  reports := fun _ _ _ h => h
  report := fun _ _ r h => h.takeReport r
  decay := fun _ _ h => h.decay
  ticks := fun _ _ _ h => h.pass _ _
  period := fun _ _ _ h => h.takeDue
  rearm := fun _ w i e entry h => by
    have he : w.suspects[i]? = some (some e) := by
      rw [List.getD_eq_getElem?_getD] at entry
      cases ht : w.suspects[i]? with
      | none => rw [ht] at entry; cases entry
      | some x => rw [ht] at entry; exact congrArg some entry
    refine h.set_some (fun j f ne hf same => ne ?_) ⟨Nat.zero_le _, Nat.zero_le _⟩
    exact h.oneEach j i f e hf he same

/-! ### The decay timer (R98) -/

/-- The count lies below the period of n tenths of a second, and is 0 while an expiry is due; with period 0 it is held at 0 and
none is due (R98). -/
def WatchUnit.onTime (n : Nat) (w : WatchUnit) : Prop :=
  (n = 0 → w.decayCount = 0 ∧ w.decayDue = false) ∧
    (n ≠ 0 → w.decayCount < n * 100 ∧ (w.decayDue = true → w.decayCount = 0))

/-- The decay timer has the count and the expiry due of another unit. -/
theorem WatchUnit.onTime.of_eq {n : Nat} {v w : WatchUnit} (h : w.onTime n) (count : v.decayCount = w.decayCount)
    (due : v.decayDue = w.decayDue) : v.onTime n := by
  rwa [WatchUnit.onTime, count, due]

/-- The count at 0 with no expiry due is in time for every period. -/
theorem WatchUnit.onTime_zero {w : WatchUnit} (count : w.decayCount = 0) (due : w.decayDue = false) (n : Nat) :
    w.onTime n := by
  refine ⟨fun _ => ⟨count, due⟩, fun hn => ⟨?_, fun _ => count⟩⟩
  omega

/-- An expiry taken leaves the count and none due. -/
theorem WatchUnit.onTime.decay {n : Nat} {w : WatchUnit} (h : w.onTime n) : w.decay.onTime n := by
  obtain ⟨stopped, running⟩ := h
  exact ⟨fun hn => ⟨(stopped hn).1, rfl⟩, fun hn => ⟨(running hn).1, nofun⟩⟩

/-- Ticks keep the count below the period, and bring it to 0 where they leave an expiry due. -/
theorem WatchUnit.onTime.pass {n : Nat} {w : WatchUnit} (h : w.onTime n) (d : Nat) : (w.pass (n * 100) d).onTime n := by
  unfold WatchUnit.pass
  split
  · exact h
  · split
    next stopped => exact WatchUnit.onTime_zero rfl rfl n
    next running =>
      have hn : n ≠ 0 := fun hn => running (by rw [hn, Nat.zero_mul])
      exact ⟨fun h0 => absurd h0 hn, fun _ => ⟨Nat.mod_lt _ (by omega), fun due => beq_iff_eq.mp due⟩⟩

/-- From s to u the decay timer stands. -/
def State.sameTimer (s u : State) : Prop :=
  u.watch.decayCount = s.watch.decayCount ∧ u.watch.decayDue = s.watch.decayDue

/-- A status report leaves the decay timer alone. -/
theorem State.takeReport_sameTimer (s : State) (r : StatusReport) : s.sameTimer (s.takeReport r) := by
  refine KeepsReport.takeReport (P := s.sameTimer) (E := fun _ => True) (C := fun _ => True) ⟨rfl, rfl⟩
    (fun _ _ => ⟨s.sameTimer, ?_, ⟨rfl, rfl⟩, fun _ h => h⟩) (fun _ _ => trivial) ⟨rfl, rfl⟩
  exact {
    hand := fun _ _ _ _ hu => hu
    firing := fun _ hu => hu
    suspect := fun _ _ hu _ => hu
    join := fun _ _ _ hu _ _ _ => hu
    retire := fun _ _ hu _ => hu
    failure := fun _ _ hu => hu
    served := fun _ _ _ _ _ => trivial
    found := fun _ _ _ _ => trivial
    counted := fun _ _ _ _ => trivial
    fired := fun _ _ _ => trivial
    reset := fun _ _ _ => trivial
    denied := fun _ _ => trivial }

theorem onTime_kept : KeptInWatch WatchUnit.onTime where
  start := WatchUnit.onTime_zero rfl rfl _
  free := fun _ _ _ h => h
  deny := fun _ _ _ h => h
  reports := fun _ _ _ h => h
  report := fun _ s r h => let ⟨count, due⟩ := s.takeReport_sameTimer r; h.of_eq count due
  decay := fun _ _ h => h.decay
  ticks := fun _ _ d h => h.pass d
  period := fun _ m w _ => WatchUnit.onTime_zero (w := { w.takeDue with decayCount := 0 }) rfl w.takeDue_decayDue m
  rearm := fun _ _ _ _ _ h => h

theorem suspectLaw_kept : KeptByParts SuspectLaw := by
  have law : SuspectLaw = fun s => SuspectTable s.watch.suspects := funext fun s => propext suspectLaw_iff
  rw [law]
  exact suspectTable_kept.keptByParts

/-- Settles O56: each law by what the parts of a step keep; the record unit's laws by `KeptByParts.of_recs`, the error watch
unit's by `KeptInWatch`. -/
theorem recordAndSuspectLawsKept : Obligations.RecordAndSuspectLawsKept :=
  ⟨fun _ _ => alertLaw_kept.step, fun _ _ => queueLaw_kept.step, fun _ _ => suspectLaw_kept.step,
    fun _ _ => onTime_kept.keptByParts.step⟩

end Sys2Proof.Machine
end

section
/-! The issue arbiter under every step: tags, credits and wait count (R51, R52, R55), and the release of the link (R63, R64). -/

namespace Sys2Proof.Machine

/-! ### The operations that reach the arbiter -/

section Grants

variable {A : Arbiter → Prop} (place : ∀ (a : Arbiter) (t : Tag) (e : OutEntry), a.nextFree = some t → A a → A (a.place t e))
  (wait : ∀ (a : Arbiter) (n : Nat), n ≤ 64 → A a → A { a with bgWait := n }) {s : State}

include place

/-- The issue of a slot places requests, each under the tag assigned next (R35, R36). -/
theorem State.issue_arb {k : Nat} {x : Slot} (hs : A s.arb) : A (s.issue k x).arb := by
  have single : ∀ p, A (s.issueSingle k x p).arb := fun p => by
    unfold State.issueSingle
    split
    next t ht => exact place _ _ _ ht hs
    · exact hs
  have dual : ∀ p q, A (s.issueDual k x p q).arb := fun p q => by
    unfold State.issueDual
    split
    next t ht =>
      dsimp only
      split
      next t2 ht2 => exact place _ _ _ ht2 (place _ _ _ ht hs)
      · exact hs
    · exact hs
  unfold State.issue
  split
  · exact single _
  · exact single _
  · exact single _
  · exact dual _ _
  · exact hs

include wait

theorem State.grantRelay_arb (hs : A s.arb) : A s.grantRelay.arb := by
  have short : s.waitAfterRelay ≤ 64 := by
    unfold State.waitAfterRelay
    split
    · exact Nat.min_le_left ..
    · exact Nat.zero_le _
  unfold State.grantRelay
  split
  · split
    next x _ =>
      rw [State.headTested_arb]
      exact wait _ _ short (State.issue_arb place hs)
    · exact hs
  · exact hs

theorem State.grantCopy_arb (hs : A s.arb) : A s.grantCopy.arb := by
  unfold State.grantCopy
  split
  next ht _ => exact wait _ 0 (Nat.zero_le _) (place _ _ _ ht hs)
  next ht _ => exact wait _ 0 (Nat.zero_le _) (place _ _ _ ht hs)
  · exact hs

theorem State.grantPatrol_arb (hs : A s.arb) : A s.grantPatrol.arb := by
  unfold State.grantPatrol
  split
  next ht _ => exact wait _ 0 (Nat.zero_le _) (place _ _ _ ht hs)
  · exact hs

theorem State.grant_arb {w : Winner} (hs : A s.arb) : A (s.grant w).arb := by
  cases w with
  | relay => exact State.grantRelay_arb place wait hs
  | copy => exact State.grantCopy_arb place wait hs
  | patrol => exact State.grantPatrol_arb place wait hs

/-- A grant places requests under free tags and sets the background wait count, and does nothing else to the arbiter. -/
theorem State.takeGrant_arb (hs : A s.arb) : A s.takeGrant.arb := by
  unfold State.takeGrant
  split
  · exact hs
  · split
    · split
      · rwa [State.headTested_arb]
      · exact State.grant_arb place wait (by rwa [State.headTested_arb])
    · exact State.grantRelay_arb place wait hs
  · exact State.grant_arb place wait hs

end Grants

/-- The events that reach the arbiter: a change of the port's level or of READY, a grant, a response, and a credit grant. -/
theorem State.Event.arb_cases {s u : State} (h : s.Event u) :
    (u.arb = s.arb ∧ u.prstN = s.prstN ∧ u.fuse.part = s.fuse.part) ∨
      (u.prstN = true ∧ u.fuse.part = .ready ∧ u.arb = { s.arb with linkUp := true }) ∨
      (u.arb = s.arb ∧ s.prstN = false ∧ s.isReady = false ∧ (u.prstN = false ∨ u.fuse.part = s.fuse.part)) ∨
      (u.prstN = false ∧ u.arb = s.arb.inReset) ∨
      (u.prstN = s.prstN ∧ u.fuse.part = s.fuse.part ∧
        (u = s.takeGrant ∨ (∃ t, u.arb = (s.removeTag t).arb) ∨
          ∃ n, u.arb = { s.arb with credits := min Config.maxDownCredits n })) := by
  cases h with
  | ready loading _ _ low => exact .inr (.inr (.inl ⟨rfl, low, loading, .inl low⟩))
  | readyReleased _ _ _ high => exact .inr (.inl ⟨high, rfl, rfl⟩)
  | fall => exact .inr (.inr (.inr (.inl (by simp))))
  | rise low loading => exact .inr (.inr (.inl ⟨rfl, low, loading, .inr rfl⟩))
  | riseReleased low isReady => exact .inr (.inl ⟨rfl, beq_iff_eq.mp isReady, rfl⟩)
  | grant => exact .inr (.inr (.inr (.inr (by simp))))
  | response tag e a first => exact .inr (.inr (.inr (.inr ⟨by simp, by simp, .inr (.inl ⟨tag, by simp⟩)⟩)))
  | credits count => exact .inr (.inr (.inr (.inr ⟨rfl, rfl, .inr (.inr ⟨_, rfl⟩)⟩)))
  | _ => exact .inl (by simp [State.passMilliseconds_fuse, State.endVerify])

/-- No command reaches the arbiter. -/
theorem State.Commanded.arb {s u : State} (h : s.Commanded u) : u.arb = s.arb := by
  cases h with
  | paramSet p v => cases p <;> rfl
  | _ => simp [State.acceptCommit]

/-! ### Tags, credits and wait count (R51, R52, R55) -/

/-- No tag has two entries, and the credits and the background wait count are in range. -/
structure Arbiter.InRange (a : Arbiter) : Prop where
  tags : (a.outstanding.map Prod.fst).Nodup
  credits : a.credits ≤ 128
  bgWait : a.bgWait ≤ 64

theorem tagLaw_iff {s : State} : TagLaw s ↔ s.arb.InRange :=
  ⟨fun ⟨tags, credits, bgWait⟩ => ⟨tags, credits, bgWait⟩, fun h => ⟨h.tags, h.credits, h.bgWait⟩⟩

theorem Arbiter.InRange.place {a : Arbiter} (h : a.InRange) {t : Tag} (free : a.nextFree = some t) (e : OutEntry) :
    (a.place t e).InRange :=
  ⟨place_nodup e free h.tags, (Nat.sub_le ..).trans h.credits, h.bgWait⟩

theorem Arbiter.InRange.empty (t : Tag) (up : Bool) :
    Arbiter.InRange { credits := 0, outstanding := [], nextTag := t, bgWait := 0, linkUp := up } :=
  ⟨List.nodup_nil, Nat.zero_le _, Nat.zero_le _⟩

theorem Arbiter.InRange.event {s u : State} (h : s.arb.InRange) (hu : s.Event u) : u.arb.InRange := by
  obtain ⟨eq, -⟩ | ⟨-, -, eq⟩ | ⟨eq, -⟩ | ⟨-, eq⟩ | ⟨-, -, rfl | ⟨t, eq⟩ | ⟨n, eq⟩⟩ := hu.arb_cases
  · rwa [eq]
  · rw [eq]; exact ⟨h.tags, h.credits, h.bgWait⟩
  · rwa [eq]
  · rw [eq]; exact .empty ..
  · exact State.takeGrant_arb (fun _ _ e free ha => ha.place free e) (fun _ _ hn ha => ⟨ha.tags, ha.credits, hn⟩) h
  · rw [eq]; exact ⟨h.tags.sublist (List.filter_sublist.map _), h.credits, h.bgWait⟩
  · rw [eq]; exact ⟨h.tags, Nat.min_le_left .., h.bgWait⟩

theorem tagLaw_kept : KeptByParts TagLaw where
  pending := fun _ _ h => h
  port := fun _ _ _ h => h
  powerOn := fun _ _ _ _ _ => tagLaw_iff.mpr (.empty ..)
  powerLoss := fun _ _ _ => tagLaw_iff.mpr (.empty ..)
  event := fun _ _ _ h hu => tagLaw_iff.mpr ((tagLaw_iff.mp h).event hu)
  command := fun _ _ h hu => by rwa [TagLaw, hu.arb]

/-! ### The release of the link (R63, R64) -/

/-- The law of a powered part: the link is out of reset exactly while it is READY with PRST_N high. -/
theorem linkLaw_of_powered {s : State} (hp : s.pwrOk = true) :
    LinkLaw s ↔ s.arb.linkUp = (s.isReady && s.prstN) := by
  rw [LinkLaw, hp, Bool.true_and]

theorem linkLaw_kept : KeptByParts LinkLaw where
  pending := fun _ _ h => h
  port := fun _ _ _ h => h
  powerOn := fun _ _ _ _ _ => rfl
  powerLoss := fun _ _ _ => rfl
  event := fun s u hp h hu => by
    rw [linkLaw_of_powered hp] at h
    rw [linkLaw_of_powered (hu.pwrOk.trans hp)]
    have same : ∀ {a : Arbiter}, a.linkUp = s.arb.linkUp → u.prstN = s.prstN → u.fuse.part = s.fuse.part →
        a.linkUp = (u.isReady && u.prstN) := fun ha hprst hpart => by rw [ha, h, State.isReady, State.isReady, hprst, hpart]
    obtain ⟨eq, prst, part⟩ | ⟨prst, part, eq⟩ | ⟨eq, low, loading, still⟩ | ⟨prst, eq⟩ | ⟨prst, part, grant⟩ :=
      hu.arb_cases
    · rw [eq]; exact same rfl prst part
    · rw [eq, prst, State.isReady, part]; rfl
    · have down : (u.isReady && u.prstN) = false := by
        obtain prst | part := still
        · rw [prst, Bool.and_false]
        · have : u.isReady = s.isReady := by rw [State.isReady, State.isReady, part]
          rw [this, loading, Bool.false_and]
      rw [eq, h, down, low, Bool.and_false]
    · rw [eq, prst, Bool.and_false]; rfl
    · obtain rfl | ⟨t, eq⟩ | ⟨n, eq⟩ := grant
      · exact same (State.takeGrant_arb (A := fun a => a.linkUp = s.arb.linkUp) (fun _ _ _ _ ha => ha)
          (fun _ _ _ ha => ha) rfl) prst part
      · rw [eq]; exact same rfl prst part
      · rw [eq]; exact same rfl prst part
  command := fun s u h hu => by
    rw [LinkLaw, hu.arb, hu.pwrOk, hu.prstN, State.isReady, hu.part]
    exact h

/-- Settles O57: `State.Event.arb_cases` says which events reach the arbiter, and `State.takeGrant_arb` what a grant does to it. -/
theorem arbiterLawsKept : Obligations.ArbiterLawsKept := ⟨fun _ _ => tagLaw_kept.step, fun _ _ => linkLaw_kept.step⟩

end Sys2Proof.Machine
end

section
/-! The requests of the retire queue and the active migration under every step (R65, R66, R88, R90). -/

namespace Sys2Proof.Machine

/-! ### The requests held -/

/-- The request of the active migration. -/
def Context.req? : Context → Option RetireRequest
  | .idle => none
  | .copying m _ _ => some m.req
  | .finishing m => some m.req

/-- The active migration's request, then the waiting ones. -/
def MigrationUnit.requests (m : MigrationUnit) : List RetireRequest := m.context.req?.toList ++ m.waiting

theorem Context.l?_eq (c : Context) : c.l? = c.req?.map RetireRequest.l := by cases c <;> rfl

theorem MigrationUnit.blocks_eq (m : MigrationUnit) : m.blocks = m.requests.map RetireRequest.l := by
  rw [MigrationUnit.blocks, MigrationUnit.requests, Context.l?_eq, List.map_append]
  cases m.context.req? <;> rfl

/-- The occupancy of R65 counts the requests held. -/
theorem MigrationUnit.occupancy_eq (m : MigrationUnit) : m.occupancy = m.requests.length := by
  rw [MigrationUnit.occupancy, MigrationUnit.requests, Context.active, Context.l?_eq, List.length_append, Nat.add_comm]
  cases m.context.req? <;> rfl

/-- From m to n requests have gone, and those that remain stand for one held before: for the same block, tried as often or, after
a target failure, at most `limit` times (R88). -/
structure MigrationUnit.Drops (limit : Nat) (m n : MigrationUnit) : Prop where
  blocks : (n.requests.map RetireRequest.l).Subperm (m.requests.map RetireRequest.l)
  retries : ∀ r ∈ n.requests, ∃ q ∈ m.requests, r.l = q.l ∧ (r.retry = q.retry ∨ r.retry ≤ limit)

namespace MigrationUnit.Drops

variable {limit : Nat} {m n o : MigrationUnit}

theorem of_subperm (h : n.requests.Subperm m.requests) : Drops limit m n :=
  ⟨by
    obtain ⟨l, hp, hs⟩ := h
    exact ⟨l.map _, hp.map _, hs.map _⟩, fun r hr => ⟨r, h.subset hr, rfl, .inl rfl⟩⟩

theorem of_eq (h : n.requests = m.requests) : Drops limit m n := of_subperm (h ▸ List.Subperm.refl _)

theorem refl (m : MigrationUnit) : Drops limit m m := of_eq rfl

theorem trans (h : Drops limit m n) (h' : Drops limit n o) : Drops limit m o := by
  refine ⟨h'.blocks.trans h.blocks, fun r hr => ?_⟩
  obtain ⟨q, hq, lq, rq⟩ := h'.retries r hr
  obtain ⟨p, hp, lp, rp⟩ := h.retries q hq
  refine ⟨p, hp, lq.trans lp, ?_⟩
  obtain rq | rq := rq
  · rw [rq]; exact rp
  · exact .inr rq

end MigrationUnit.Drops

/-- From s to u the migration unit has dropped requests at most, with the RETRY_LIMIT in force. -/
def State.drops (s u : State) : Prop := s.mig.Drops s.params.retryLimit u.mig

namespace State.drops

variable {s u v : State}

theorem of_eq (h : u.mig.requests = s.mig.requests) : s.drops u := MigrationUnit.Drops.of_eq h

theorem refl (s : State) : s.drops s := of_eq rfl

theorem trans (h : s.drops u) (port : u.port = s.port) (h' : u.drops v) : s.drops v := by
  unfold State.drops at h' ⊢
  rw [State.params, port] at h'
  exact MigrationUnit.Drops.trans h h'

/-- A change that leaves the migration unit alone may follow. -/
theorem then_eq (h : s.drops u) (e : v.mig = u.mig) : s.drops v := by rwa [State.drops, e]

end State.drops

section Operations

variable {s : State}

/-- Requests held are as before when context and waiting list name the same ones. -/
theorem MigrationUnit.requests_congr {m n : MigrationUnit} (context : n.context.req? = m.context.req?)
    (waiting : n.waiting = m.waiting) : n.requests = m.requests := by
  rw [MigrationUnit.requests, MigrationUnit.requests, context, waiting]

theorem State.toIdle_drops (s : State) : s.drops s.toIdle :=
  MigrationUnit.Drops.of_subperm (List.sublist_append_right ..).subperm

theorem requestResponse_drops (k : Nat) (t : Tag) (e : OutEntry) (a : Answer) : s.drops (requestResponse k t e a s) := by
  have reported : ∀ x : Slot, (s.reportIfSecondFailed x e t a).mig.requests = s.mig.requests := fun x => by
    unfold State.reportIfSecondFailed
    split <;> rfl
  unfold requestResponse
  split
  · exact .refl s
  · dsimp only
    split
    · exact .of_eq (reported _)
    · split <;> exact .of_eq (reported _)

theorem State.commitMove_drops (m : Move) : s.drops (s.commitMove m) := by
  refine State.drops.trans (u := (State.freeSuspect { s with table := commitTable s.limit s.table m } m.source).hand .migration
    (.migDone m.req.l m.source m.target)) (.of_eq ?_) ?_ (State.toIdle_drops _)
  · rw [State.hand_mig, State.freeSuspect_mig]
  · rw [State.hand_port, State.freeSuspect_port]

theorem State.tryCommit_drops : s.drops s.tryCommit := by
  unfold State.tryCommit
  split
  · split
    · exact .refl s
    · exact State.commitMove_drops _
  · exact .refl s

theorem State.tryRead_drops : s.drops s.tryRead := by
  unfold State.tryRead
  split
  next m p context =>
    split
    · exact .refl s
    · exact .of_eq (MigrationUnit.requests_congr (by rw [context]; rfl) rfl)
  · exact .refl s

theorem State.writeRemoved_drops (e : OutEntry) : s.drops (s.writeRemoved e) := by
  unfold State.writeRemoved
  split
  · split
    · split
      · exact State.tryRead_drops
      · exact .refl s
    · split
      · exact State.tryCommit_drops
      · exact .refl s
    · exact .refl s
  · exact .refl s

/-- A target failure drops the stopped request or returns it with one retry more, within RETRY_LIMIT (R88). -/
theorem State.failTarget_drops {m : Move} {p : Nat} {lock : Option Lock} (context : s.mig.context = .copying m p lock)
    (lock' : Option Lock) (cause : TargetCause) (firing : Option Nat) : s.drops (s.failTarget m lock' cause firing) := by
  unfold State.failTarget
  have mig : (((s.releaseLock lock').retireTarget m.target).hand .migration (.targetBad m.req.l m.target cause) none
      firing).mig = s.mig := by simp
  have params : (((s.releaseLock lock').retireTarget m.target).hand .migration (.targetBad m.req.l m.target cause) none
      firing).params = s.params := by simp [State.params]
  revert mig params
  generalize (((s.releaseLock lock').retireTarget m.target).hand .migration (.targetBad m.req.l m.target cause) none
    firing) = u
  intro mig params
  have held : s.mig.requests = m.req :: s.mig.waiting := by rw [MigrationUnit.requests, context]; rfl
  unfold State.retryDecision
  split
  · refine MigrationUnit.Drops.of_subperm ?_
    simp only [State.toIdle_mig, State.hand_mig, mig]
    exact (List.sublist_append_right ..).subperm
  next within =>
    have returned : (u.returnRequest { m.req with retry := m.req.retry + 1 }).toIdle.mig.requests =
        { m.req with retry := m.req.retry + 1 } :: s.mig.waiting := by
      rw [← mig]; rfl
    refine ⟨?_, ?_⟩
    · rw [returned, held]
      exact List.Subperm.refl _
    · rw [returned, held]
      intro r hr
      obtain rfl | hr := List.mem_cons.mp hr
      · rw [params] at within
        exact ⟨m.req, List.mem_cons_self, rfl, .inr (Nat.not_lt.mp within)⟩
      · exact ⟨r, List.mem_cons_of_mem _ hr, rfl, .inl rfl⟩

theorem State.copyWritten_drops {m : Move} {p q : Nat} {lock : Option Lock} (context : s.mig.context = .copying m p lock) :
    s.drops (s.copyWritten m q) := by
  unfold State.copyWritten
  split
  · exact .of_eq (MigrationUnit.requests_congr (by rw [context]; rfl) rfl)
  · refine State.drops.trans (u := (s.setMig { s.mig with context := .finishing m }).returnHeld) ?_ rfl State.tryCommit_drops
    exact .of_eq (MigrationUnit.requests_congr (by rw [context]; rfl) rfl)

theorem copyResponse_drops (t : Tag) (a : Answer) : s.drops (copyResponse t a s) := by
  unfold copyResponse
  split
  next m p c context =>
    split
    · exact .of_eq (MigrationUnit.requests_congr (by rw [context]; rfl) (by simp [State.copyRead]))
    · exact .refl s
  next m p b c context =>
    split
    · split
      · exact State.failTarget_drops context ..
      · exact State.copyWritten_drops context
    · exact .refl s
  · exact .refl s

theorem State.route_drops (t : Tag) (e : OutEntry) (a : Answer) : s.drops (s.route t e a) := by
  unfold State.route
  split
  · exact requestResponse_drops ..
  · exact copyResponse_drops ..
  · exact .of_eq (by rw [patrolResponse_mig])

theorem State.startRequest_drops {i : Nat} {r : RetireRequest} (may : s.mayStart = true)
    (waiting : s.mig.waiting[i]? = some r) : s.drops (s.startRequest i r) := by
  have idle : s.mig.context = .idle := by
    simp only [State.mayStart, Bool.and_eq_true, beq_iff_eq] at may
    exact may.1.1
  have held : s.mig.requests = s.mig.waiting := by rw [MigrationUnit.requests, idle]; rfl
  obtain ⟨hi, rfl⟩ := List.getElem?_eq_some_iff.mp waiting
  unfold State.startRequest
  dsimp only
  split
  · refine MigrationUnit.Drops.of_subperm ?_
    rw [held]
    exact (List.getElem_cons_eraseIdx_perm hi).subperm
  · have dropped : s.drops ((s.setMig { s.mig with waiting := s.mig.waiting.eraseIdx i, startEvent := true }).hand .migration
        (.noSpare s.mig.waiting[i].l)) := by
      refine MigrationUnit.Drops.of_subperm ?_
      rw [held]
      simp only [State.hand_mig, State.setMig_mig, MigrationUnit.requests, idle]
      exact (List.eraseIdx_sublist ..).subperm
    split
    · exact dropped.then_eq rfl
    · exact dropped

theorem State.migrationReset_drops : s.drops s.migrationReset := by
  unfold State.migrationReset
  split
  · exact .refl s
  next m p lock context =>
    refine .of_eq ?_
    simp only [State.toIdle_mig, State.returnRequest_mig, State.stopMove_mig, MigrationUnit.requests, context]
    rfl
  · exact State.commitMove_drops _

theorem State.takeFailure_drops (r : FailureReport) : s.drops (s.takeFailure r) := by
  unfold State.takeFailure
  split
  next m p lock context =>
    split
    · exact State.failTarget_drops context ..
    · exact .refl s
  · exact .refl s

theorem State.grant_drops (w : Winner) : s.drops (s.grant w) := by
  cases w with
  | relay => exact .of_eq (by rw [State.grant, State.grantRelay_mig])
  | copy =>
    unfold State.grant State.grantCopy
    dsimp only
    split
    next context => exact .of_eq (MigrationUnit.requests_congr (by rw [context]; rfl) rfl)
    next context => exact .of_eq (MigrationUnit.requests_congr (by rw [context]; rfl) rfl)
    · exact .refl s
  | patrol =>
    unfold State.grant State.grantPatrol
    dsimp only
    split
    · exact .of_eq rfl
    · exact .refl s

theorem State.takeGrant_drops : s.drops s.takeGrant := by
  have tested : s.drops s.headTested := .of_eq (by rw [State.headTested_mig])
  unfold State.takeGrant
  split
  · exact .refl s
  · split
    · split
      · exact tested
      · exact tested.trans s.headTested_port (State.grant_drops _)
    · exact .of_eq (by rw [State.grantRelay_mig])
  · exact State.grant_drops _

end Operations

/-! ### Laws of the requests held -/

/-- What a law of the requests held, for a RETRY_LIMIT of n, has to be kept by so that every event keeps it. -/
structure KeptByRequests (L : Nat → MigrationUnit → Prop) : Prop where
  empty : L Params.defaults.retryLimit { waiting := [], context := .idle, startEvent := false, failures := [] }
  drops : ∀ (n : Nat) (m m' : MigrationUnit), L n m → m.Drops n m' → L n m'
  join : ∀ (n : Nat) (m : MigrationUnit) (r : RetireRequest), L n m → r.retry = 0 → m.holds r.l = false →
    m.isFull = false → L n (m.join r)

namespace KeptByRequests

variable {L : Nat → MigrationUnit → Prop} (h : KeptByRequests L) {s : State}

include h

theorem of_drops {u : State} (hs : L s.params.retryLimit s.mig) (hu : s.drops u) : L s.params.retryLimit u.mig :=
  h.drops _ _ _ hs hu

theorem takeReport {r : StatusReport} {n : Nat} (hs : L n s.mig) : L n (s.takeReport r).mig :=
  takeReport_keeps (P := fun u => L n u.mig) (C := fun _ => True) (fun _ _ hu => hu) (fun _ _ hu => hu)
    (fun _ _ _ hu _ free room => h.join n _ _ hu rfl free room) (fun _ _ hu _ => hu)
    (fun _ _ hu => h.drops n _ _ hu (.of_eq rfl)) (fun _ _ _ _ _ => trivial) (fun _ _ => trivial) hs

theorem reportStatuses {e : OutEntry} {a : Answer} {first : Bool} {n : Nat} (hs : L n s.mig) :
    L n (s.reportStatuses e a first).mig := by
  unfold State.reportStatuses
  split
  · split
    · exact h.takeReport hs
    · exact hs
  · exact hs

theorem event {u : State} (hu : s.Event u) (hs : L s.params.retryLimit s.mig) : L s.params.retryLimit u.mig := by
  cases hu with
  | nothing | passes | rise | overrun | rejected | credits | gapExpired | offered | skipped | decayed
  | fweChanged | bitReported | markerReported | recordTaken | orphaned | heldTimeout =>
    exact hs
  | accepted | queuedTimeout | heldTimeoutUnstalls | patrolTimeout | ticks | ticksAndDecayed => simpa using hs
  | startEventSpent | verified | ready | readyReleased | riseReleased => exact h.of_drops hs (.of_eq rfl)
  | fall =>
    exact h.of_drops hs (State.drops.trans (u := { s with
      prstN := false, req := s.req.emptied, arb := s.arb.inReset, patrol := { s.patrol with state := .off } })
      (.of_eq rfl) rfl State.migrationReset_drops)
  | grant => exact h.of_drops hs State.takeGrant_drops
  | response tag e a first =>
    have reported : L s.params.retryLimit ((s.removeTag tag).reportStatuses e a first).mig := h.reportStatuses hs
    have params : ((s.removeTag tag).reportStatuses e a first).params = s.params := by simp [State.params]
    rw [← params] at reported ⊢
    exact h.of_drops reported (State.drops.trans (State.route_drops ..) (State.route_port ..) (State.writeRemoved_drops e))
  | report => exact h.takeReport hs
  | failure k r =>
    exact h.of_drops hs (State.drops.trans (u := s.setMig { s.mig with failures := s.mig.failures.eraseIdx k })
      (.of_eq rfl) rfl (State.takeFailure_drops r))
  | started i r may _ waiting => exact h.of_drops hs (State.startRequest_drops may waiting)
  | claimed m p context =>
    refine h.of_drops hs (State.drops.trans (u := s.setMig { s.mig with context := .copying m p (some .claimed) })
      (.of_eq (MigrationUnit.requests_congr ?_ rfl)) rfl State.tryRead_drops)
    rw [context]
    rfl
  | drained => exact h.of_drops hs State.tryRead_drops
  | committed => exact h.of_drops hs State.tryCommit_drops
  | copyReadTimeout m p c =>
    have stopped : s.drops ((s.advanceTo c.deadline).stopMove m (some (.reading (some c)))
      (.migFailed m.req.l .timeout)) := .of_eq (by rw [State.stopMove_mig, State.advanceTo_mig])
    exact h.of_drops hs (stopped.trans (by rw [State.stopMove_port, State.advanceTo_port]) (State.toIdle_drops _))
  | copyWriteTimeout m p b c context =>
    have passed : s.drops (s.advanceTo c.deadline) := .of_eq rfl
    have context' : (s.advanceTo c.deadline).mig.context = .copying m p (some (.writing b (some c))) := context
    exact h.of_drops hs (passed.trans rfl (State.failTarget_drops context' ..))

theorem command {u : State} (hu : s.Commanded u) (hs : L s.params.retryLimit s.mig) : L s.params.retryLimit u.mig := by
  cases hu with
  | unchanged | mapped | unmapped | banned | rearmed | acknowledged | committing => exact hs
  | cleared => simpa using hs
  | paramSet p v => cases p <;> exact hs
  | retiring l _ notHeld room => exact h.join _ _ _ hs rfl notHeld room
  | cancelled l =>
    exact h.drops _ _ _ hs (.of_subperm ((List.Sublist.refl _).append List.eraseP_sublist).subperm)
  | aborted m p lock =>
    have stopped : s.drops (s.stopMove m lock (.migAborted m.req.l .manual)) := .of_eq (by rw [State.stopMove_mig])
    exact h.of_drops hs (stopped.trans (by rw [State.stopMove_port]) (State.toIdle_drops _))

end KeptByRequests

/-! ### The retire queue (R65, R66) -/

/-- No block is queued twice, and at most 8 requests are held (R65, R66). -/
theorem retireLaw_iff {s : State} :
    RetireLaw s ↔ (s.mig.requests.map RetireRequest.l).Nodup ∧ s.mig.requests.length ≤ 8 := by
  rw [RetireLaw, MigrationUnit.blocks_eq, MigrationUnit.occupancy_eq]

theorem MigrationUnit.join_requests (m : MigrationUnit) (r : RetireRequest) : (m.join r).requests = m.requests ++ [r] :=
  (List.append_assoc ..).symm

theorem MigrationUnit.isFull_eq_false {m : MigrationUnit} : m.isFull = false ↔ m.requests.length < 8 := by
  rw [MigrationUnit.isFull, MigrationUnit.occupancy_eq, decide_eq_false_iff_not, Nat.not_le]
  rfl

theorem retireLaw_requests :
    KeptByRequests fun _ m => (m.requests.map RetireRequest.l).Nodup ∧ m.requests.length ≤ 8 where
  empty := by decide
  drops := fun _ m m' ⟨nodup, short⟩ d => by
    refine ⟨?_, ?_⟩
    · obtain ⟨l, perm, sub⟩ := d.blocks
      exact perm.nodup_iff.mp (nodup.sublist sub)
    · have := d.blocks.length_le
      rw [List.length_map, List.length_map] at this
      omega
  join := fun _ m r ⟨nodup, _⟩ _ free room => by
    rw [MigrationUnit.isFull_eq_false] at room
    have absent : r.l ∉ m.requests.map RetireRequest.l := by
      rw [← MigrationUnit.blocks_eq, ← MigrationUnit.holds_iff, free]
      exact Bool.false_ne_true
    rw [MigrationUnit.join_requests, List.map_append, List.length_append]
    exact ⟨nodup.append (List.nodup_singleton _) (List.disjoint_singleton.mpr absent), room⟩

theorem retireLaw_kept : KeptByParts RetireLaw where
  pending := fun _ _ h => h
  port := fun _ _ _ h => h
  powerOn := fun _ _ _ _ _ => retireLaw_iff.mpr retireLaw_requests.empty
  powerLoss := fun _ _ _ => retireLaw_iff.mpr retireLaw_requests.empty
  event := fun _ _ _ h hu => retireLaw_iff.mpr (retireLaw_requests.event hu (retireLaw_iff.mp h))
  command := fun _ _ h hu => retireLaw_iff.mpr (retireLaw_requests.command hu (retireLaw_iff.mp h))

end Sys2Proof.Machine
end

section
/-! The parameter set and the retry counts under every step (R65, R189, R190). -/

namespace Sys2Proof.Machine

/-- A write in range is read back as the value written, and leaves every other parameter (R191, R192). -/
theorem Params.value_write (ps : Params) {p : Param} {v : Nat} (h : p.inRange v = true) (q : Param) :
    (ps.write p v).value q = if q = p then v else ps.value q := by
  split
  next same =>
    subst same
    cases q with
    | ceLimit | ueLimit | decayPeriod | patrolGap | bgShare | respTimeout | retryLimit => rfl
    | ceAction | ueAction =>
      have range : v ≤ 3 := of_decide_eq_true h
      change (Action.ofNumber v).number = v
      interval_cases v <;> rfl
    | rearmMode =>
      have range : v ≤ 1 := of_decide_eq_true h
      change (RearmMode.ofNumber v).number = v
      interval_cases v <;> rfl
    | alertKinds =>
      have range : v < 32768 := of_decide_eq_true h
      change (BitVec.ofNat 16 v).toNat = v
      rw [BitVec.toNat_ofNat]
      exact Nat.mod_eq_of_lt (by omega)
  next other =>
    cases p <;> cases q <;> first | rfl | exact absurd rfl other

/-- Every parameter is in its range (R190). -/
def Params.InRange (ps : Params) : Prop := ∀ p : Param, p.inRange (ps.value p) = true

theorem Params.InRange.defaults : Params.defaults.InRange := by
  rintro (_ | _) <;> decide

theorem Params.InRange.write {ps : Params} (h : ps.InRange) {p : Param} {v : Nat} (range : p.inRange v = true) :
    (ps.write p v).InRange := by
  intro q
  rw [Params.value_write ps range]
  split
  next same => rwa [same]
  · exact h q

theorem Params.InRange.retryLimit {ps : Params} (h : ps.InRange) : ps.retryLimit ≤ 3 :=
  of_decide_eq_true (h .retryLimit)

/-- The law of the parameters: every one in range, and every retry count at most 3. -/
theorem paramsLaw_iff {s : State} : ParamsLaw s ↔ s.params.InRange ∧ ∀ r ∈ s.mig.requests, r.retry ≤ 3 := by
  have all : (∀ p ∈ [Param.ceLimit, .ueLimit, .ceAction, .ueAction, .rearmMode, .decayPeriod, .patrolGap, .bgShare,
      .respTimeout, .retryLimit, .alertKinds], p.inRange (s.params.value p) = true) ↔ s.params.InRange :=
    ⟨fun h p => h p (by cases p <;> decide), fun h p _ => h p⟩
  rw [ParamsLaw, all, MigrationUnit.requests]
  cases s.mig.context <;> simp [Context.req?, and_comm]

theorem retries_requests : KeptByRequests fun n m => n ≤ 3 ∧ ∀ r ∈ m.requests, r.retry ≤ 3 where
  empty := by decide
  drops := fun n m m' ⟨limit, low⟩ d => by
    refine ⟨limit, fun r hr => ?_⟩
    obtain ⟨q, hq, -, same | within⟩ := d.retries r hr
    · rw [same]; exact low q hq
    · exact within.trans limit
  join := fun n m r ⟨limit, low⟩ zero _ _ => by
    refine ⟨limit, fun q hq => ?_⟩
    rw [MigrationUnit.join_requests, List.mem_append, List.mem_singleton] at hq
    obtain hq | rfl := hq
    · exact low q hq
    · rw [zero]; exact Nat.zero_le _

theorem paramsLaw_kept : KeptByParts ParamsLaw where
  pending := fun _ _ h => h
  port := fun s p hp h => by
    rw [paramsLaw_iff] at h ⊢
    have same : State.params { s with port := p } = s.params := hp
    rwa [same]
  powerOn := fun _ _ _ _ _ => paramsLaw_iff.mpr ⟨.defaults, retries_requests.empty.2⟩
  powerLoss := fun _ _ _ => paramsLaw_iff.mpr ⟨.defaults, retries_requests.empty.2⟩
  event := fun s u _ h hu => by
    rw [paramsLaw_iff] at h ⊢
    obtain ⟨range, low⟩ := h
    rw [hu.params]
    exact ⟨range, (retries_requests.event hu ⟨range.retryLimit, low⟩).2⟩
  command := fun s u h hu => by
    rw [paramsLaw_iff] at h ⊢
    obtain ⟨range, low⟩ := h
    refine ⟨?_, (retries_requests.command hu ⟨range.retryLimit, low⟩).2⟩
    cases hu with
    | paramSet p v inRange =>
      have written : ((s.writeParam p v).paramWritten p (s.params.value p) v).params = s.params.write p v := by
        cases p <;> rfl
      rw [written]
      exact range.write inRange
    | _ => simpa [State.params, State.acceptCommit] using range

end Sys2Proof.Machine
end

section
/-! The fuse unit under every step (R149, R152, R160 to R165): only a commit sets commit pending, and only the end of its
verification clears it. -/

namespace Sys2Proof.Machine

/-! ### Entries that are commit pending -/

/-- From t to t' no entry has become commit pending. -/
structure NoNewPending (t t' : List Entry) : Prop where
  was : ∀ k, (entryAt t' k).commitPending = true → (entryAt t k).commitPending = true

theorem NoNewPending.refl (t : List Entry) : NoNewPending t t := ⟨fun _ h => h⟩

theorem NoNewPending.trans {t t' t'' : List Entry} (h : NoNewPending t t') (h' : NoNewPending t' t'') :
    NoNewPending t t'' := ⟨fun k hk => h.was k (h'.was k hk)⟩

/-- Writing an entry that is pending only where the old one was makes none pending. -/
theorem noNewPending_set {t : List Entry} {k : Nat} {e : Entry}
    (h : e.commitPending = true → (entryAt t k).commitPending = true) : NoNewPending t (t.set k e) := by
  refine ⟨fun j hj => ?_⟩
  by_cases same : k = j
  · subst same
    rcases Nat.lt_or_ge k t.length with inside | beyond
    · rw [entryAt_set_self inside] at hj
      exact h hj
    · rwa [List.set_eq_of_length_le beyond] at hj
  · rwa [entryAt_set_ne same] at hj

/-- An entry that is not pending may be written anywhere. -/
theorem noNewPending_set_of_not {t : List Entry} {k : Nat} {e : Entry} (h : e.commitPending = false) :
    NoNewPending t (t.set k e) :=
  noNewPending_set fun pending => absurd pending (h ▸ Bool.false_ne_true)

/-- An entry that leaves service is pending only if it was. -/
theorem Entry.retire_commitPending {e : Entry} (h : e.retire.commitPending = true) : e.commitPending = true := by
  cases e with
  | soft | hard => cases h
  | free | reserved | retired => exact h

theorem noNewPending_commitTable (limit : Nat) (t : List Entry) (m : Move) : NoNewPending t (commitTable limit t m) := by
  have target : NoNewPending t (t.set m.target (.soft m.req.l false)) := noNewPending_set_of_not rfl
  unfold commitTable
  dsimp only
  split
  · exact target
  · exact target.trans (noNewPending_set Entry.retire_commitPending)

theorem noNewPending_mapSoftTable (t : List Entry) (l k : Nat) : NoNewPending t (mapSoftTable t l k) := by
  unfold mapSoftTable
  split
  · exact (noNewPending_set Entry.retire_commitPending).trans (noNewPending_set_of_not rfl)
  · exact noNewPending_set_of_not rfl

/-- From s to u no entry of the remap table has become commit pending. -/
def State.noneSet (s u : State) : Prop := NoNewPending s.table u.table

namespace State.noneSet

variable {s u v : State}

theorem of_eq (h : u.table = s.table) : s.noneSet u := by rw [State.noneSet, h]; exact .refl _

theorem refl (s : State) : s.noneSet s := of_eq rfl

theorem trans (h : s.noneSet u) (h' : u.noneSet v) : s.noneSet v := NoNewPending.trans h h'

theorem then_eq (h : s.noneSet u) (e : v.table = u.table) : s.noneSet v := h.trans (of_eq e)

end State.noneSet

section Operations

variable {s : State}

theorem State.commitMove_table (s : State) (m : Move) : (s.commitMove m).table = commitTable s.limit s.table m := by
  rw [State.commitMove, State.toIdle_table, State.hand_table, State.freeSuspect_table]

theorem State.commitMove_noneSet (m : Move) : s.noneSet (s.commitMove m) := by
  rw [State.noneSet, State.commitMove_table]
  exact noNewPending_commitTable ..

theorem State.tryCommit_noneSet : s.noneSet s.tryCommit := by
  unfold State.tryCommit
  split
  · split
    · exact .refl s
    · exact State.commitMove_noneSet _
  · exact .refl s

theorem State.writeRemoved_noneSet (e : OutEntry) : s.noneSet (s.writeRemoved e) := by
  unfold State.writeRemoved
  split
  · split
    · split
      · exact .of_eq s.tryRead_table
      · exact .refl s
    · split
      · exact State.tryCommit_noneSet
      · exact .refl s
    · exact .refl s
  · exact .refl s

theorem State.failTarget_noneSet (m : Move) (lock : Option Lock) (cause : TargetCause) (firing : Option Nat) :
    s.noneSet (s.failTarget m lock cause firing) := by
  have retired : s.noneSet ((s.releaseLock lock).retireTarget m.target) := by
    have := s.releaseLock_table lock
    rw [State.noneSet, State.retireTarget, State.setEntry_table, this]
    exact noNewPending_set_of_not rfl
  exact retired.then_eq (State.retryDecision_table ..)

theorem State.stopMove_noneSet (m : Move) (lock : Option Lock) (record : RecordBody) :
    s.noneSet (s.stopMove m lock record) := by
  have := s.releaseLock_table lock
  rw [State.noneSet, State.stopMove, State.hand_table, State.releaseTarget, State.setEntry_table, this]
  exact noNewPending_set_of_not rfl

theorem copyResponse_noneSet (t : Tag) (a : Answer) : s.noneSet (copyResponse t a s) := by
  unfold copyResponse
  split
  · split
    · exact .of_eq (State.copyRead_table ..)
    · exact .refl s
  · split
    · split
      · exact State.failTarget_noneSet ..
      · unfold State.copyWritten
        split
        · exact .of_eq rfl
        · refine State.noneSet.trans (.of_eq ?_) State.tryCommit_noneSet
          rfl
    · exact .refl s
  · exact .refl s

theorem State.patrolRetire_noneSet (k : Nat) : s.noneSet (s.patrolRetire k) := by
  unfold State.patrolRetire State.retireIfFree
  cases entryAt s.table k with
  | free => exact noNewPending_set_of_not rfl
  | reserved | soft | hard | retired => exact .refl s

theorem patrolResponse_noneSet (t : Tag) (a : Answer) : s.noneSet (patrolResponse t a s) := by
  unfold patrolResponse
  split
  · split
    · split
      · exact (State.patrolRetire_noneSet _).then_eq (State.endPatrolRead_table _)
      · exact .of_eq (State.endPatrolRead_table s)
    · exact .refl s
  · exact .refl s

theorem State.route_noneSet (t : Tag) (e : OutEntry) (a : Answer) : s.noneSet (s.route t e a) := by
  unfold State.route
  split
  · exact .of_eq (requestResponse_table ..)
  · exact copyResponse_noneSet ..
  · exact patrolResponse_noneSet ..

theorem State.takeReport_noneSet (r : StatusReport) : s.noneSet (s.takeReport r) :=
  takeReport_keeps (P := s.noneSet) (C := fun _ => True) (fun _ _ hu => hu) (fun _ _ hu => hu)
    (fun _ _ _ hu _ _ _ => hu) (fun _ _ hu _ => hu.trans (noNewPending_set_of_not rfl)) (fun _ _ hu => hu)
    (fun _ _ _ _ _ => trivial) (fun _ _ => trivial) (.refl s)

theorem State.reportStatuses_noneSet (e : OutEntry) (a : Answer) (first : Bool) :
    s.noneSet (s.reportStatuses e a first) := by
  unfold State.reportStatuses
  split
  · split
    · exact State.takeReport_noneSet _
    · exact .of_eq rfl
  · exact .refl s

theorem State.startRequest_noneSet (i : Nat) (r : RetireRequest) : s.noneSet (s.startRequest i r) := by
  unfold State.startRequest
  dsimp only
  split
  · exact noNewPending_set_of_not rfl
  · split <;> exact .of_eq rfl

theorem State.migrationReset_noneSet : s.noneSet s.migrationReset := by
  unfold State.migrationReset
  split
  · exact .refl s
  next m p lock _ => exact (State.stopMove_noneSet m lock (.migAborted m.req.l .portReset)).then_eq rfl
  · exact State.commitMove_noneSet _

theorem State.takeFailure_noneSet (r : FailureReport) : s.noneSet (s.takeFailure r) := by
  unfold State.takeFailure
  split
  · split
    · exact State.failTarget_noneSet ..
    · exact .refl s
  · exact .refl s

/-- Every event but the end of VERIFYING makes no entry commit pending (R162). -/
theorem State.Event.noneSet {u : State} (h : s.Event u) :
    s.noneSet u ∨ ∃ slot record timer, s.fuse.programmer = .verifying slot record timer ∧ u = s.endVerify slot record := by
  cases h with
  | verified slot record timer verifying => exact .inr ⟨slot, record, timer, verifying, rfl⟩
  | fall =>
    have reset : s.noneSet { s with
        prstN := false, req := s.req.emptied, arb := s.arb.inReset, patrol := { s.patrol with state := .off } } := .of_eq rfl
    exact .inl (reset.trans State.migrationReset_noneSet)
  | response tag e a first =>
    have removed : s.noneSet (s.removeTag tag) := .of_eq rfl
    exact .inl (((removed.trans (State.reportStatuses_noneSet e a first)).trans
      (State.route_noneSet tag e a)).trans (State.writeRemoved_noneSet e))
  | report k r =>
    have left : s.noneSet { s with watch := { s.watch with reports := s.watch.reports.eraseIdx k } } := .of_eq rfl
    exact .inl (left.trans (State.takeReport_noneSet r))
  | failure k r =>
    have left : s.noneSet (s.setMig { s.mig with failures := s.mig.failures.eraseIdx k }) := .of_eq rfl
    exact .inl (left.trans (State.takeFailure_noneSet r))
  | started i r => exact .inl (State.startRequest_noneSet i r)
  | committed => exact .inl State.tryCommit_noneSet
  | copyReadTimeout m p c =>
    have passed : s.noneSet (s.advanceTo c.deadline) := .of_eq rfl
    exact .inl ((passed.trans (State.stopMove_noneSet m (some (.reading (some c)))
      (.migFailed m.req.l .timeout))).then_eq rfl)
  | copyWriteTimeout m p b c =>
    have passed : s.noneSet (s.advanceTo c.deadline) := .of_eq rfl
    exact .inl (passed.trans (State.failTarget_noneSet ..))
  | _ => exact .inl (.of_eq (by simp))

/-- Every command but the two commits makes no entry commit pending. -/
theorem State.Commanded.noneSet {u : State} (h : s.Commanded u) :
    (s.noneSet u ∧ u.fuse = s.fuse) ∨ ∃ ptr l record, s.fuse.programmer = .idle ∧ s.fuse.appendPtr = some ptr ∧ ptr < 32 ∧
      u = (s.acceptCommit ptr record l).after := by
  cases h with
  | committing ptr l record programmer pointer slot => exact .inr ⟨ptr, l, record, programmer, pointer, slot, rfl⟩
  | mapped => exact .inl ⟨noNewPending_mapSoftTable .., rfl⟩
  | unmapped | banned => exact .inl ⟨noNewPending_set_of_not rfl, rfl⟩
  | paramSet p v => cases p <;> exact .inl ⟨.of_eq rfl, rfl⟩
  | aborted m p lock =>
    exact .inl ⟨(State.stopMove_noneSet m lock (.migAborted m.req.l .manual)).then_eq rfl, by simp⟩
  | unchanged | retiring | cancelled | rearmed | acknowledged => exact .inl ⟨.of_eq rfl, rfl⟩
  | cleared => exact .inl ⟨.of_eq (by simp), by simp⟩

end Operations

/-! ### The programmer (R149, R160 to R163) -/

/-- The programming slot is the append pointer, below 32; the programming timer is in its range; the append pointer is at most
32; a READY part has a capacity and a pointer (R149, R152). -/
structure FuseUnit.Lawful (f : FuseUnit) : Prop where
  slot : ∀ k ∈ f.programmer.slot?, f.appendPtr = some k ∧ k < 32
  inTime : f.programmer.inTime
  pointer : ∀ p ∈ f.appendPtr, p ≤ 32
  loaded : f.part = .ready → f.capacity.isSome = true ∧ f.appendPtr.isSome = true

/-- An entry of the table t is commit pending only as the spare `record` names. -/
def pendingOnly (t : List Entry) (record : Option FuseRecord) : Prop :=
  ∀ k, (entryAt t k).commitPending = true → record.map FuseRecord.spare = some k

theorem pendingOnly.mono {t t' : List Entry} {record : Option FuseRecord} (h : pendingOnly t record)
    (none : NoNewPending t t') : pendingOnly t' record := fun k hk => h k (none.was k hk)

theorem fuseLaw_iff {s : State} :
    FuseLaw s ↔ s.fuseArray.length = 32 ∧ pendingOnly s.table s.fuse.programmer.record? ∧ s.fuse.Lawful := by
  have inTable : ∀ k, (entryAt s.table k).commitPending = true → k < s.table.length := fun k hk =>
    Nat.lt_of_not_le fun beyond => by rw [entryAt_of_ge beyond] at hk; cases hk
  have ready : s.isReady = true ↔ s.fuse.part = .ready := beq_iff_eq
  rw [FuseLaw, ready]
  constructor
  · rintro ⟨array, pending, slot, inTime, pointer, loaded⟩
    exact ⟨array, fun k hk => pending k (inTable k hk) hk, slot, inTime, pointer, loaded⟩
  · rintro ⟨array, pending, slot, inTime, pointer, loaded⟩
    exact ⟨array, fun k _ hk => pending k hk, slot, inTime, pointer, loaded⟩

theorem Programmer.pass_slot? (p : Programmer) (d : Nat) : (p.pass d).slot? = p.slot? := by
  unfold Programmer.pass
  split
  · rfl
  · split <;> rfl
  · rfl

theorem Programmer.pass_record? (p : Programmer) (d : Nat) : (p.pass d).record? = p.record? := by
  unfold Programmer.pass
  split
  · rfl
  · split <;> rfl
  · rfl

/-- PROGRAMMING ends at 190 ms, and the timer stays within 200 ms (R149, R163). -/
theorem Programmer.pass_inTime (p : Programmer) (d : Nat) (h : p.inTime) : (p.pass d).inTime := by
  unfold Programmer.pass
  split
  · exact h
  · split
    next below => exact below
    · exact Nat.min_le_left ..
  · exact Nat.min_le_left ..

theorem FuseUnit.Lawful.pass {f : FuseUnit} (h : f.Lawful) (d : Nat) :
    FuseUnit.Lawful { f with programmer := f.programmer.pass d } :=
  ⟨fun k hk => h.slot k (by rwa [Programmer.pass_slot?] at hk), Programmer.pass_inTime _ _ h.inTime, h.pointer, h.loaded⟩

/-- The events that reach the fuse unit or its array: READY, the reports of the array, ticks, and the end of VERIFYING. -/
theorem State.Event.fuse_cases {s u : State} (h : s.Event u) :
    (u.fuse = s.fuse ∧ u.fuseArray = s.fuseArray) ∨
      (u.fuse = { s.fuse with part := .ready } ∧ u.fuseArray = s.fuseArray ∧ s.fuse.capacity ≠ none ∧
        s.fuse.appendPtr ≠ none) ∨
      (∃ slot record timer reported p, s.fuse.programmer = .programming slot record timer reported ∧
        (p = .verifying slot record timer ∨ ∃ bits, p = .programming slot record timer bits) ∧
        u.fuse = { s.fuse with programmer := p } ∧ ∃ k f, u.fuseArray = setFuse s.fuseArray k f) ∨
      (∃ d, u.fuse = { s.fuse with programmer := s.fuse.programmer.pass d } ∧ u.fuseArray = s.fuseArray) ∨
      ∃ slot record timer, s.fuse.programmer = .verifying slot record timer ∧ u = s.endVerify slot record := by
  cases h with
  | ready _ capacity pointer | readyReleased _ capacity pointer => exact .inr (.inl ⟨rfl, rfl, capacity, pointer⟩)
  | bitReported slot record timer reported bits burnt programming =>
    exact .inr (.inr (.inl ⟨slot, record, timer, reported, _, programming, .inr ⟨bits, rfl⟩, rfl, slot, (· ||| burnt), rfl⟩))
  | markerReported slot record timer reported burnt programming =>
    exact .inr (.inr (.inl ⟨slot, record, timer, reported, _, programming, .inl rfl, rfl, slot, (· ||| burnt), rfl⟩))
  | ticks d | ticksAndDecayed d =>
    exact .inr (.inr (.inr (.inl ⟨d, s.passMilliseconds_fuse d, s.passMilliseconds_fuseArray d⟩)))
  | verified slot record timer verifying => exact .inr (.inr (.inr (.inr ⟨slot, record, timer, verifying, rfl⟩)))
  | _ => exact .inl (by simp)

/-- The end of VERIFYING leaves the entry of the record's spare without commit pending (R17). -/
theorem Entry.verified_commitPending (e : Entry) (record : FuseRecord) (slot : Nat) (isMatch : Bool) :
    (e.verified record slot isMatch).commitPending = false := by
  cases isMatch <;> cases record <;> cases e <;> rfl

/-- At the end of VERIFYING the programmer is IDLE, no entry is commit pending, and the pointer has risen by one (R164, R165). -/
theorem FuseUnit.Lawful.endVerify {s : State} (h : s.fuse.Lawful) (pending : pendingOnly s.table s.fuse.programmer.record?)
    {slot timer : Nat} {record : FuseRecord} (verifying : s.fuse.programmer = .verifying slot record timer) :
    pendingOnly (s.endVerify slot record).table (s.endVerify slot record).fuse.programmer.record? ∧
      (s.endVerify slot record).fuse.Lawful := by
  obtain ⟨pointer, below⟩ := h.slot slot (by rw [verifying]; rfl)
  refine ⟨fun k hk => ?_, ⟨nofun, trivial, fun p hp => ?_, fun ready => ⟨(h.loaded ready).1, ?_⟩⟩⟩
  · change (entryAt (s.table.set record.spare _) k).commitPending = true at hk
    have spare : record.spare = k := by
      have := pending k ((noNewPending_set_of_not (Entry.verified_commitPending ..)).was k hk)
      rw [verifying] at this
      exact Option.some.inj this
    subst spare
    rcases Nat.lt_or_ge record.spare s.table.length with inside | beyond
    · rw [entryAt_set_self inside, Entry.verified_commitPending] at hk
      cases hk
    · rw [List.set_eq_of_length_le beyond, entryAt_of_ge beyond] at hk
      cases hk
  · change (s.fuse.appendPtr.map (· + 1)) = some p at hp
    rw [pointer] at hp
    cases hp
    exact below
  · change (s.fuse.appendPtr.map (· + 1)).isSome = true
    rw [pointer]
    rfl

/-- An accepted commit programs the slot at the pointer, and makes the spare its record names the only one pending (R160, R161). -/
theorem FuseUnit.Lawful.acceptCommit {s : State} (h : s.fuse.Lawful)
    (pending : pendingOnly s.table s.fuse.programmer.record?) (idle : s.fuse.programmer = .idle) {ptr : Nat}
    (pointer : s.fuse.appendPtr = some ptr) (slot : ptr < 32) (record : FuseRecord) (l : Nat) :
    pendingOnly (s.acceptCommit ptr record l).after.table (s.acceptCommit ptr record l).after.fuse.programmer.record? ∧
      (s.acceptCommit ptr record l).after.fuse.Lawful := by
  have none : ∀ k, (entryAt s.table k).commitPending ≠ true := fun k hk => by
    have := pending k hk
    rw [idle] at this
    cases this
  refine ⟨fun k hk => ?_, ⟨fun k hk => ?_, Nat.zero_lt_succ _, h.pointer, h.loaded⟩⟩
  · by_cases same : record.spare = k
    · exact congrArg some same
    · change (entryAt (s.table.set record.spare _) k).commitPending = true at hk
      rw [entryAt_set_ne same] at hk
      exact absurd hk (none k)
  · cases hk
    exact ⟨pointer, slot⟩

/-! ### LOADING (R154 to R156) -/

/-- The turn of a slot makes no entry commit pending. -/
theorem applySlot_noNewPending (limit : Nat) (t : List Entry) (k : Nat) (i : SlotImage) :
    NoNewPending t (applySlot limit t k i).1 := by
  unfold applySlot
  split
  · split
    · unfold applyMap
      split
      · exact .refl t
      · split
        · exact .refl t
        · unfold applyMapTable
          split
          · exact (noNewPending_set Entry.retire_commitPending).trans (noNewPending_set_of_not rfl)
          · exact noNewPending_set_of_not rfl
    · unfold applyBan
      split
      · exact .refl t
      · exact noNewPending_set_of_not rfl
  · exact .refl t

theorem applySlots_noNewPending (limit : Nat) (is : List SlotImage) (t : List Entry) (k : Nat) :
    NoNewPending t (applySlots limit t k is).1 := by
  induction is generalizing t k with
  | nil => exact .refl t
  | cons i is ih => exact (applySlot_noNewPending limit t k i).trans (ih _ _)

/-- The append pointer is at most the number of slots (R152). -/
theorem appendPointerOf_le (ks : List SlotKind) : appendPointerOf ks ≤ ks.length := by
  induction ks with
  | nil => exact Nat.zero_le _
  | cons k ks ih =>
    rw [List.length_cons]
    unfold appendPointerOf
    split
    · split <;> omega
    · omega

/-- In a table of FREE entries none is commit pending. -/
theorem pendingOnly_replicate (n : Nat) (record : Option FuseRecord) : pendingOnly (List.replicate n .free) record := by
  intro k hk
  have free : entryAt (List.replicate n .free) k = .free := by
    rcases Nat.lt_or_ge k n with inside | beyond
    · rw [entryAt_eq_getElem (by simpa using inside), List.getElem_replicate]
    · exact entryAt_of_ge (by simpa using beyond)
  rw [free] at hk
  cases hk

theorem fuseLaw_kept : KeptByParts FuseLaw where
  pending := fun _ _ h => h
  port := fun _ _ _ h => h
  powerOn := fun s straps prst mcs h => by
    rw [fuseLaw_iff] at h ⊢
    refine ⟨h.1, (pendingOnly_replicate Config.spares none).mono (applySlots_noNewPending ..), nofun, trivial,
      fun p hp => ?_, nofun⟩
    change some (appendPointerAt s.fuseArray) = some p at hp
    cases hp
    have := appendPointerOf_le (s.fuseArray.map classifySlot)
    rwa [List.length_map, h.1] at this
  powerLoss := fun s _ h => by
    rw [fuseLaw_iff] at h ⊢
    exact ⟨h.1, pendingOnly_replicate _ _, nofun, trivial, nofun, nofun⟩
  event := fun s u _ h hu => by
    rw [fuseLaw_iff] at h ⊢
    obtain ⟨array, before, lawful⟩ := h
    obtain none | ⟨slot, record, timer, verifying, rfl⟩ := hu.noneSet
    · have pending := before.mono none
      obtain ⟨fuse, eq⟩ | ⟨fuse, eq, capacity, pointer⟩ | ⟨slot, record, timer, reported, p, was, now, fuse, k, f, eq⟩ |
        ⟨d, fuse, eq⟩ | ⟨slot, record, timer, verifying, rfl⟩ := hu.fuse_cases
      · rw [fuse, eq]; exact ⟨array, pending, lawful⟩
      · rw [fuse, eq]
        exact ⟨array, pending, lawful.slot, lawful.inTime, lawful.pointer,
          fun _ => ⟨Option.isSome_iff_ne_none.mpr capacity, Option.isSome_iff_ne_none.mpr pointer⟩⟩
      · rw [fuse, eq]
        have inTime := lawful.inTime
        have atSlot := lawful.slot
        rw [was] at pending inTime atSlot
        refine ⟨by rw [setFuse, List.length_set, array], ?_, ?_, ?_, lawful.pointer, lawful.loaded⟩
        · obtain rfl | ⟨bits, rfl⟩ := now <;> exact pending
        · obtain rfl | ⟨bits, rfl⟩ := now <;> exact atSlot
        · obtain rfl | ⟨bits, rfl⟩ := now
          · exact (Nat.le_of_lt inTime).trans (by decide)
          · exact inTime
      · rw [fuse, eq]
        refine ⟨array, ?_, lawful.pass d⟩
        dsimp only
        rwa [Programmer.pass_record?]
      · exact ⟨array, lawful.endVerify before verifying⟩
    · exact ⟨array, lawful.endVerify before verifying⟩
  command := fun s u h hu => by
    rw [fuseLaw_iff] at h ⊢
    obtain ⟨array, pending, lawful⟩ := h
    have array' : u.fuseArray = s.fuseArray := by
      cases hu with
      | paramSet p v => cases p <;> rfl
      | _ => simp [State.acceptCommit]
    rw [array']
    obtain ⟨none, fuse⟩ | ⟨ptr, l, record, idle, pointer, slot, rfl⟩ := hu.noneSet
    · rw [fuse]; exact ⟨array, pending.mono none, lawful⟩
    · exact ⟨array, lawful.acceptCommit pending idle pointer slot record l⟩

end Sys2Proof.Machine
end

section
/-! The patrol unit under every step (R121, R122, R125 to R127, R132, R133). -/

namespace Sys2Proof.Machine

/-- The law of the patrol unit over C blocks with a PATROL_GAP of g; `on` says that the part is READY with PRST_N high: the cursor
lies in the memory, outside OFF the unit is on, it waits or seeks only while the gap is not 0, and its fields agree with its
state (R121, R122). -/
structure PatrolUnit.Lawful (c g : Nat) (on : Prop) (p : PatrolUnit) : Prop where
  quad : p.quad < 64
  block : p.block < c ∨ p.block = 0
  active : p.state ≠ .off → on
  enabled : p.state.number = 1 ∨ p.state.number = 2 ∨ p.state.number = 3 → g ≠ 0
  gap : ∀ n, p.state = .gap n → n ≤ g
  offered : ∀ b q, p.state = .offered b q → b = p.block ∧ q = p.quad
  reading : ∀ b q t d, p.state = .reading b q t d → b = p.block ∧ q = p.quad

/-- The part is READY with PRST_N high. -/
def State.isOn (s : State) : Prop := s.isReady = true ∧ s.prstN = true

theorem patrolLaw_iff {s : State} : PatrolLaw s ↔ s.patrol.Lawful s.capacityBlocks s.params.patrolGap s.isOn := by
  unfold PatrolLaw State.patrolAgrees
  constructor
  · rintro ⟨quad, block, active, enabled, agrees⟩
    refine ⟨quad, block, active, enabled, fun n hn => ?_, fun b q hn => ?_, fun b q t d hn => ?_⟩ <;>
      (rw [hn] at agrees; exact agrees)
  · intro h
    refine ⟨h.quad, h.block, h.active, h.enabled, ?_⟩
    split
    · trivial
    next n hn => exact h.gap n hn
    · trivial
    next b q hn => exact h.offered b q hn
    next b q t d hn => exact h.reading b q t d hn

namespace PatrolUnit.Lawful

variable {c g : Nat} {on on' : Prop} {p : PatrolUnit}

theorem off (quad : p.quad < 64) (block : p.block < c ∨ p.block = 0) (hoff : p.state = .off) : p.Lawful c g on := by
  refine ⟨quad, block, fun h => absurd hoff h, ?_, ?_, ?_, ?_⟩ <;> rw [hoff]
  · exact fun number => absurd number (by decide)
  all_goals nofun

/-- An off unit stays lawful whatever the part does. -/
theorem of_off (h : p.Lawful c g on) (hoff : p.state = .off) : p.Lawful c g on' := .off h.quad h.block hoff

/-- A unit that the part does not hold on is off. -/
theorem off_of_not (h : p.Lawful c g on) (hon : ¬on) : p.state = .off := not_not.mp fun active => hon (h.active active)

theorem mono (h : p.Lawful c g on) (hon : on → on') : p.Lawful c g on' :=
  ⟨h.quad, h.block, fun active => hon (h.active active), h.enabled, h.gap, h.offered, h.reading⟩

/-- A running gap stays within PATROL_GAP. -/
theorem toGap (h : p.Lawful c g on) (hon : on) (hg : g ≠ 0) {n : Nat} (hn : n ≤ g) :
    PatrolUnit.Lawful c g on { p with state := .gap n } :=
  ⟨h.quad, h.block, fun _ => hon, fun _ => hg, fun m hm => by cases hm; exact hn, nofun, nofun⟩

theorem toSeeking (h : p.Lawful c g on) (hon : on) (hg : g ≠ 0) : PatrolUnit.Lawful c g on { p with state := .seeking } :=
  ⟨h.quad, h.block, fun _ => hon, fun _ => hg, nofun, nofun, nofun⟩

theorem pass (h : p.Lawful c g on) (d : Nat) : (p.pass g d).Lawful c g on := by
  unfold PatrolUnit.pass
  split
  next n hn =>
    have hon : on := h.active (by rw [hn]; nofun)
    exact h.toGap hon (h.enabled (by rw [hn]; exact .inl rfl)) (Nat.min_le_left ..)
  · exact h

/-- The cursor moved on lies in the memory (R125, R127). -/
theorem advance (h : p.Lawful c g on) :
    (advanceCursor c (p.block, p.quad)).2 < 64 ∧
      ((advanceCursor c (p.block, p.quad)).1 < c ∨ (advanceCursor c (p.block, p.quad)).1 = 0) := by
  unfold advanceCursor nextBlock
  split
  next inside => exact ⟨inside, h.block⟩
  · refine ⟨Nat.zero_lt_succ _, ?_⟩
    split
    next inside => exact .inl inside
    · exact .inr rfl

end PatrolUnit.Lawful

section Operations

variable {s : State}

/-- The patrol unit of u is lawful by the capacity, the parameter set, READY and PRST_N of s. -/
def State.patrolIn (s u : State) : Prop := u.patrol.Lawful s.capacityBlocks s.params.patrolGap s.isOn

theorem State.capacityBlocks_eq {u : State} (h : u.fuse.capacity = s.fuse.capacity) : u.capacityBlocks = s.capacityBlocks := by
  simp only [State.capacityBlocks, h]

theorem State.passMilliseconds_patrolIn (h : s.patrolIn s) (d : Nat) : s.patrolIn (s.passMilliseconds d) := by
  unfold State.patrolIn State.passMilliseconds
  dsimp only
  split
  · exact h
  · exact h.pass _

/-- The end of a patrol read moves the cursor on, and waits only where patrol is enabled (R127, R128, R131). -/
theorem State.endPatrolRead_patrolIn {u : State} (h : s.patrolIn u) (fuse : u.fuse = s.fuse) (prst : u.prstN = s.prstN)
    (port : u.port = s.port) : s.patrolIn u.endPatrolRead := by
  have cursor := h.advance
  have capacity : u.capacityBlocks = s.capacityBlocks := State.capacityBlocks_eq (by rw [fuse])
  unfold State.patrolIn State.endPatrolRead
  dsimp only [State.setPatrol]
  rw [capacity]
  split
  next enabled =>
    simp only [State.patrolEnabled, State.isReady, State.params, fuse, prst, port, Bool.and_eq_true, bne_iff_ne] at enabled
    obtain ⟨⟨ready, high⟩, gap⟩ := enabled
    exact ⟨cursor.1, cursor.2, fun _ => ⟨ready, high⟩, fun _ => gap, fun n hn => by cases hn; exact Nat.zero_le _, nofun,
      nofun⟩
  · exact .off cursor.1 cursor.2 rfl

theorem patrolResponse_patrolIn {u : State} (h : s.patrolIn u) (fuse : u.fuse = s.fuse) (prst : u.prstN = s.prstN)
    (port : u.port = s.port) (t : Tag) (a : Answer) : s.patrolIn (patrolResponse t a u) := by
  unfold patrolResponse
  split
  · split
    · split
      · refine State.endPatrolRead_patrolIn ?_ ?_ ?_ ?_
        · rwa [State.patrolIn, State.patrolRetire_patrol]
        · rw [State.patrolRetire_fuse, fuse]
        · rw [State.patrolRetire_prstN, prst]
        · rw [State.patrolRetire_port, port]
      · exact State.endPatrolRead_patrolIn h fuse prst port
    · exact h
  · exact h

theorem State.route_patrolIn {u : State} (h : s.patrolIn u) (fuse : u.fuse = s.fuse) (prst : u.prstN = s.prstN)
    (port : u.port = s.port) (t : Tag) (e : OutEntry) (a : Answer) : s.patrolIn (u.route t e a) := by
  unfold State.route
  split
  · rwa [State.patrolIn, requestResponse_patrol]
  · rwa [State.patrolIn, copyResponse_patrol]
  · exact patrolResponse_patrolIn h fuse prst port t a

theorem State.grant_patrolIn {u : State} (h : s.patrolIn u) (w : Winner) : s.patrolIn (u.grant w) := by
  cases w with
  | relay => rwa [State.patrolIn, State.grant, State.grantRelay_patrol]
  | copy =>
    unfold State.grant State.grantCopy
    dsimp only
    split <;> exact h
  | patrol =>
    unfold State.grant State.grantPatrol
    dsimp only
    split
    next t b q _ offered =>
      have on : s.isOn := h.active (by rw [offered]; nofun)
      obtain ⟨block, quad⟩ := h.offered b q offered
      exact ⟨h.quad, h.block, fun _ => on, fun number => absurd number (by simp [PatrolState.number]), nofun, nofun,
        fun _ _ _ _ e => by cases e; exact ⟨block, quad⟩⟩
    · exact h

theorem State.takeGrant_patrolIn (h : s.patrolIn s) : s.patrolIn s.takeGrant := by
  have tested : s.patrolIn s.headTested := by rwa [State.patrolIn, State.headTested_patrol]
  unfold State.takeGrant
  split
  · exact h
  · split
    · split
      · exact tested
      · exact State.grant_patrolIn tested _
    · rwa [State.patrolIn, State.grantRelay_patrol]
  · exact State.grant_patrolIn h _

/-- The release of the links enables patrol where PATROL_GAP is not 0 (R122). -/
theorem State.release_patrol_lawful {c g : Nat} {on : Prop} (h : s.patrol.Lawful c g on) (gap : s.params.patrolGap = g)
    (hon : on) : s.release.patrol.Lawful c g on := by
  change PatrolUnit.Lawful c g on
    { s.patrol with state := if s.params.patrolGap = 0 then s.patrol.state else .gap 0 }
  split
  · exact h
  next running => exact h.toGap hon (gap ▸ running) (Nat.zero_le _)

theorem patrolLaw_event {u : State} (h : PatrolLaw s) (hu : s.Event u) : PatrolLaw u := by
  rw [patrolLaw_iff] at h ⊢
  have capacity : u.capacityBlocks = s.capacityBlocks := State.capacityBlocks_eq hu.capacity
  rw [capacity, hu.params]
  have still : u.isReady = s.isReady → u.prstN = s.prstN → s.patrolIn u →
      u.patrol.Lawful s.capacityBlocks s.params.patrolGap u.isOn := fun ready prst hu => by
    rwa [State.isOn, ready, prst]
  cases hu with
  | ready loading _ _ low => exact h.of_off (h.off_of_not fun on => by rw [State.isOn, loading] at on; exact absurd on.1 nofun)
  | readyReleased loading _ _ high =>
    exact State.release_patrol_lawful
      (h.of_off (h.off_of_not fun on => by rw [State.isOn, loading] at on; exact absurd on.1 nofun)) rfl ⟨rfl, high⟩
  | fall =>
    rw [State.migrationReset_patrol]
    exact .off h.quad h.block rfl
  | rise low loading =>
    exact h.of_off (h.off_of_not fun on => by rw [State.isOn, loading] at on; exact absurd on.1 nofun)
  | riseReleased low isReady =>
    exact State.release_patrol_lawful
      (h.of_off (h.off_of_not fun on => by rw [State.isOn, low] at on; exact absurd on.2 nofun)) rfl ⟨isReady, rfl⟩
  | grant => exact still (by simp [State.isReady]) (by simp) (State.takeGrant_patrolIn h)
  | response tag e a first =>
    refine still (by simp [State.isReady]) (by simp) ?_
    rw [State.patrolIn, State.writeRemoved_patrol]
    refine State.route_patrolIn ?_ ?_ ?_ ?_ tag e a
    · rwa [State.patrolIn, State.reportStatuses_patrol]
    · simp
    · simp
    · simp
  | passes d => exact h.pass d
  | copyReadTimeout m p c | copyWriteTimeout m p b c => exact still (by simp [State.isReady]) (by simp) (by
      simp only [State.patrolIn, State.toIdle_patrol, State.stopMove_patrol, State.failTarget_patrol]; exact h.pass _)
  | orphaned k x | heldTimeout k x => exact h.pass _
  | queuedTimeout k x =>
    exact still (by simp [State.isReady]) (by simp) (by
      rw [State.patrolIn, State.testIfNewHead_patrol]; exact h.pass _)
  | heldTimeoutUnstalls k x =>
    exact still (by simp [State.isReady]) (by simp) (by rw [State.patrolIn, State.headTested_patrol]; exact h.pass _)
  | patrolTimeout b q t d =>
    exact still (by simp [State.isReady]) (by simp) (State.endPatrolRead_patrolIn (h.pass _) rfl rfl rfl)
  | gapExpired n gap =>
    have on : s.isOn := h.active (by rw [gap]; nofun)
    exact (h.pass _).toSeeking on (h.enabled (by rw [gap]; exact .inl rfl))
  | offered seeking =>
    have on : s.isOn := h.active (by rw [seeking]; nofun)
    exact ⟨h.quad, h.block, fun _ => on, fun _ => h.enabled (by rw [seeking]; exact .inr (.inl rfl)), nofun,
      fun _ _ e => by cases e; exact ⟨rfl, rfl⟩, nofun⟩
  | skipped seeking =>
    have on : s.isOn := h.active (by rw [seeking]; nofun)
    refine ⟨Nat.zero_lt_succ _, ?_, fun _ => on, fun _ => h.enabled (by rw [seeking]; exact .inr (.inl rfl)), nofun, nofun,
      nofun⟩
    change nextBlock _ _ < _ ∨ nextBlock _ _ = 0
    unfold nextBlock
    split
    next inside => exact .inl inside
    · exact .inr rfl
  | ticks d | ticksAndDecayed d =>
    exact still (by simp [State.isReady, State.passMilliseconds_fuse]) (by simp) (State.passMilliseconds_patrolIn h d)
  | _ => exact still (by simp [State.isReady, State.endVerify]) (by simp) (by simpa [State.patrolIn] using h)

/-- A write of PATROL_GAP acts on the patrol unit so that it agrees with the new gap (R132). -/
theorem PatrolUnit.Lawful.gapWritten {c old : Nat} {on : Prop} {p : PatrolUnit} (h : p.Lawful c old on) (new : Nat)
    {ready : Bool} (hr : ready = true → on) :
    PatrolUnit.Lawful c new on { p with state := patrolGapWritten p.state old new ready } := by
  have away : PatrolUnit.Lawful c new on { p with state := .off } := .off h.quad h.block rfl
  have waits : on → new ≠ 0 → PatrolUnit.Lawful c new on { p with state := .gap 0 } := fun hon hn =>
    ⟨h.quad, h.block, fun _ => hon, fun _ => hn, fun n e => by cases e; exact Nat.zero_le _, nofun, nofun⟩
  cases hp : p.state with
  | off =>
    dsimp only [patrolGapWritten]
    split
    next start => exact waits (hr start.2.2) start.1
    · exact away
  | gap n =>
    dsimp only [patrolGapWritten]
    split
    · exact away
    next hn => exact waits (h.active (by rw [hp]; nofun)) hn
  | seeking =>
    dsimp only [patrolGapWritten]
    split
    · exact away
    next hn => exact ⟨h.quad, h.block, fun _ => h.active (by rw [hp]; nofun), fun _ => hn, nofun, nofun, nofun⟩
  | offered b q =>
    dsimp only [patrolGapWritten]
    split
    · exact away
    next hn =>
      exact ⟨h.quad, h.block, fun _ => h.active (by rw [hp]; nofun), fun _ => hn, nofun,
        fun _ _ e => by cases e; exact h.offered b q hp, nofun⟩
  | reading b q t d =>
    exact ⟨h.quad, h.block, fun _ => h.active (by rw [hp]; nofun), by simp [patrolGapWritten, PatrolState.number], nofun, nofun,
      fun _ _ _ _ e => by cases e; exact h.reading b q t d hp⟩

theorem patrolLaw_command {u : State} (h : PatrolLaw s) (hu : s.Commanded u) : PatrolLaw u := by
  rw [patrolLaw_iff] at h ⊢
  have capacity : u.capacityBlocks = s.capacityBlocks := State.capacityBlocks_eq hu.capacity
  have on : u.isOn = s.isOn := by rw [State.isOn, State.isReady, hu.part, hu.prstN]; rfl
  rw [capacity, on]
  cases hu with
  | paramSet p v =>
    cases p with
    | patrolGap => exact h.gapWritten v fun ready => (Bool.and_eq_true ..).mp ready
    | _ => exact h
  | _ => simpa [State.params, State.acceptCommit] using h

theorem patrolLaw_kept : KeptByParts PatrolLaw where
  pending := fun _ _ h => h
  port := fun s p hp h => by
    rw [patrolLaw_iff] at h ⊢
    have same : State.params { s with port := p } = s.params := hp
    rwa [same]
  powerOn := fun _ _ _ _ _ => patrolLaw_iff.mpr (.off (Nat.zero_lt_succ _) (.inr rfl) rfl)
  powerLoss := fun _ _ _ => patrolLaw_iff.mpr (.off (Nat.zero_lt_succ _) (.inr rfl) rfl)
  event := fun _ _ _ => patrolLaw_event
  command := fun _ _ => patrolLaw_command

end Operations

/-- Settles O60: the fuse unit's law by who sets and clears commit pending, the patrol unit's by its state, and the parameters' by
`KeptByRequests`, for the retry counts, and `Params.value_write`. -/
theorem fusePatrolParamsLawsKept : Obligations.FusePatrolParamsLawsKept :=
  ⟨fun _ _ => fuseLaw_kept.step, fun _ _ => patrolLaw_kept.step, fun _ _ => paramsLaw_kept.step⟩

end Sys2Proof.Machine
end

section
/-! The remap table and the migration context under every step (R5, R6, R10 to R14, R21, R70): the table read entry by entry, the
law of the table and the context, and what each kind of change asks for to keep it. -/

namespace Sys2Proof.Machine

/-! ### The table, entry by entry -/

/-- The entry read after a write: the one written, at its own index within the table. -/
theorem entryAt_set (t : List Entry) (k : Nat) (e : Entry) (j : Nat) :
    entryAt (t.set k e) j = if k = j ∧ j < t.length then e else entryAt t j := by
  split
  next h =>
    obtain ⟨rfl, inside⟩ := h
    exact entryAt_set_self inside e
  next h =>
    by_cases same : k = j
    · subst same
      rw [List.set_eq_of_length_le (Nat.not_lt.mp fun inside => h ⟨rfl, inside⟩)]
    · exact entryAt_set_ne same e

/-- The entry of spare k serves L (R6). -/
def serves (t : List Entry) (k l : Nat) : Prop := (entryAt t k).serves? = some l

theorem serves_lt {t : List Entry} {k l : Nat} (h : serves t k l) : k < t.length :=
  Nat.lt_of_not_le fun beyond => by rw [serves, entryAt_of_ge beyond] at h; cases h

theorem entryAt_mem {t : List Entry} {k : Nat} (h : k < t.length) : entryAt t k ∈ t := by
  rw [entryAt_eq_getElem h]
  exact List.getElem_mem h

theorem mem_iff_entryAt {t : List Entry} {e : Entry} : e ∈ t ↔ ∃ k < t.length, entryAt t k = e := by
  constructor
  · intro h
    obtain ⟨k, hk, rfl⟩ := List.mem_iff_getElem.mp h
    exact ⟨k, hk, entryAt_eq_getElem hk⟩
  · rintro ⟨k, hk, rfl⟩
    exact entryAt_mem hk

/-- No logical block is served by two spares exactly when two spares that serve one block are one spare (R5). -/
theorem serves_nodup_iff {t : List Entry} :
    (t.filterMap Entry.serves?).Nodup ↔ ∀ j k l, serves t j l → serves t k l → j = k := by
  constructor
  · intro nodup j k l hj hk
    have pairs := List.pairwise_iff_getElem.mp (List.pairwise_filterMap.mp nodup)
    have ne : ∀ {i i' : Nat}, i < i' → serves t i l → serves t i' l → False := fun lt hi hi' => by
      have inside := serves_lt hi
      have inside' := serves_lt hi'
      rw [serves, entryAt_eq_getElem inside] at hi
      rw [serves, entryAt_eq_getElem inside'] at hi'
      exact pairs _ _ inside inside' lt l hi l hi' rfl
    rcases Nat.lt_trichotomy j k with lt | eq | lt
    · exact (ne lt hj hk).elim
    · exact eq
    · exact (ne lt hk hj).elim
  · intro one
    refine List.pairwise_filterMap.mpr (List.pairwise_iff_getElem.mpr fun i j hi hj lt p hp q hq same => ?_)
    subst same
    have := one i j p (by rwa [serves, entryAt_eq_getElem hi]) (by rwa [serves, entryAt_eq_getElem hj])
    omega

/-- A block that a spare serves is found at that spare, since no other serves it (R6). -/
theorem translate_of_serves {limit : Nat} {t : List Entry} (one : ∀ j k l, serves t j l → serves t k l → j = k) {k l : Nat}
    (h : serves t k l) : translate limit t l = limit + k := by
  have found : ∀ {i : Nat}, serves t i l → limit + i = limit + k := fun hi => by rw [one _ _ _ hi h]
  unfold translate
  split
  next i hi =>
    obtain ⟨-, c, he⟩ := entryAt_of_softFor hi
    exact found (by rw [serves, he]; rfl)
  next noSoft =>
    split
    next i hi =>
      obtain ⟨-, c, he⟩ := entryAt_of_hardFor hi
      exact found (by rw [serves, he]; rfl)
    next noHard =>
      have inside := entryAt_mem (serves_lt h)
      obtain ⟨c, he⟩ | ⟨c, he⟩ := Entry.serves?_eq_some.mp h
      · exact absurd (he ▸ inside) (softFor_eq_none.mp noSoft c)
      · exact absurd (he ▸ inside) (hardFor_eq_none.mp noHard c)

/-- A block that no spare serves is its own home block (R6). -/
theorem translate_of_none {limit : Nat} {t : List Entry} {l : Nat} (h : ∀ k, ¬serves t k l) : translate limit t l = l := by
  unfold translate
  split
  next i hi =>
    obtain ⟨-, c, he⟩ := entryAt_of_softFor hi
    exact absurd (show serves t i l by rw [serves, he]; rfl) (h i)
  next =>
    split
    next i hi =>
      obtain ⟨-, c, he⟩ := entryAt_of_hardFor hi
      exact absurd (show serves t i l by rw [serves, he]; rfl) (h i)
    · rfl

/-- Tables that serve L at the same spares translate it alike. -/
theorem translate_congr {limit : Nat} {t t' : List Entry} (one : ∀ j k l, serves t j l → serves t k l → j = k)
    (one' : ∀ j k l, serves t' j l → serves t' k l → j = k) {l : Nat} (same : ∀ k, serves t' k l ↔ serves t k l) :
    translate limit t' l = translate limit t l := by
  by_cases h : ∃ k, serves t k l
  · obtain ⟨k, hk⟩ := h
    rw [translate_of_serves one hk, translate_of_serves one' ((same k).mpr hk)]
  · push Not at h
    rw [translate_of_none h, translate_of_none fun k hk => h k ((same k).mp hk)]

/-! ### The law of table and context -/

/-- The migration in progress. -/
def Context.move? : Context → Option Move
  | .idle => none
  | .copying m _ _ => some m
  | .finishing m => some m

/-- The table under a logical limit: 128 entries, none serving a block that another serves, and each naming a block below the
limit if any (R4, R5). -/
structure TableLaw (limit : Nat) (t : List Entry) : Prop where
  length : t.length = 128
  oneEach : ∀ j k l, serves t j l → serves t k l → j = k
  below : ∀ k l, (entryAt t k).l? = some l → l < limit

/-- What a migration in progress says of the table: its target alone is RESERVED, for its block, whose translation is its source
(R10, R70). -/
structure MoveLaw (limit : Nat) (t : List Entry) (m : Move) : Prop where
  block : m.req.l < limit
  target : m.target < 128
  source : m.source = translate limit t m.req.l
  reserved : entryAt t m.target = .reserved m.req.l
  only : ∀ k, (entryAt t k).isReserved = true → k = m.target

/-- Table, waiting list and context agree (R4, R5, R10, R65, R70). -/
structure MapAgrees (limit : Nat) (t : List Entry) (m : MigrationUnit) : Prop where
  table : TableLaw limit t
  waiting : ∀ r ∈ m.waiting, r.l < limit
  idle : m.context = .idle → ∀ k, (entryAt t k).isReserved = false
  move : ∀ x, m.context.move? = some x → MoveLaw limit t x
  pointer : ∀ x p lock, m.context = .copying x p lock → p < 64

/-- Only a spare of the pool can be RESERVED. -/
theorem isReserved_lt {t : List Entry} {k : Nat} (h : (entryAt t k).isReserved = true) : k < t.length :=
  Nat.lt_of_not_le fun beyond => by rw [entryAt_of_ge beyond] at h; cases h

theorem moveLaw_iff {s : State} {m : Move} (length : s.table.length = 128) :
    MoveLaw s.limit s.table m ↔
      m.req.l < s.limit ∧ m.target < 128 ∧ m.source = s.translate m.req.l ∧ s.onlyReserved m.target m.req.l :=
  ⟨fun h => ⟨h.block, h.target, h.source, h.reserved, fun j _ => h.only j⟩,
    fun ⟨block, target, source, reserved, only⟩ =>
      ⟨block, target, source, reserved, fun k hk => only k (length ▸ isReserved_lt hk) hk⟩⟩

theorem mapLaw_iff {s : State} : MapLaw s ↔ MapAgrees s.limit s.table s.mig := by
  have below : (∀ e ∈ s.table, ∀ l ∈ e.l?, l < s.limit) ↔ ∀ k l, (entryAt s.table k).l? = some l → l < s.limit := by
    constructor
    · intro all k l hl
      have inside : k < s.table.length := Nat.lt_of_not_le fun beyond => by rw [entryAt_of_ge beyond] at hl; cases hl
      exact all _ (entryAt_mem inside) l hl
    · intro all e he l hl
      obtain ⟨k, -, rfl⟩ := mem_iff_entryAt.mp he
      exact all k l hl
  rw [MapLaw, serves_nodup_iff, below, State.contextAgrees]
  constructor
  · rintro ⟨length, oneEach, below, waiting, agrees⟩
    refine ⟨⟨length, oneEach, below⟩, waiting, fun idle k => ?_, fun x hx => ?_, fun x p lock hx => ?_⟩
    · rw [idle] at agrees
      rw [← Bool.not_eq_true]
      exact fun hk => absurd hk (agrees _ (entryAt_mem (isReserved_lt hk)) ▸ Bool.false_ne_true)
    · cases hc : s.mig.context <;> rw [hc] at hx agrees <;> cases hx
      · exact (moveLaw_iff length).mpr agrees.2
      · exact (moveLaw_iff length).mpr agrees
    · rw [hx] at agrees
      exact agrees.1
  · intro h
    refine ⟨h.table.length, h.table.oneEach, h.table.below, h.waiting, ?_⟩
    split
    next idle =>
      intro e he
      obtain ⟨k, -, rfl⟩ := mem_iff_entryAt.mp he
      exact h.idle idle k
    next m p lock hc => exact ⟨h.pointer m p lock hc, (moveLaw_iff h.table.length).mp (h.move m (by rw [hc]; rfl))⟩
    next m hc => exact (moveLaw_iff h.table.length).mp (h.move m (by rw [hc]; rfl))

/-! ### Changes of one entry -/

namespace TableLaw

variable {limit : Nat} {t : List Entry} (h : TableLaw limit t)

include h

/-- Writing an entry keeps the table's law, if it names a block below the limit and serves none that another entry serves. -/
theorem set {k : Nat} {e : Entry} (below : ∀ l, e.l? = some l → l < limit)
    (other : ∀ j l, j ≠ k → serves t j l → e.serves? ≠ some l) : TableLaw limit (t.set k e) := by
  have read : ∀ j, (j = k ∧ entryAt (t.set k e) j = e) ∨ entryAt (t.set k e) j = entryAt t j := fun j => by
    rw [entryAt_set]
    split
    next hj => exact .inl ⟨hj.1.symm, rfl⟩
    · exact .inr rfl
  refine ⟨by rw [List.length_set, h.length], fun i j l hi hj => ?_, fun j l hl => ?_⟩
  · unfold serves at hi hj
    by_cases ik : i = k
    · by_cases jk : j = k
      · rw [ik, jk]
      · rw [entryAt_set_ne (Ne.symm jk)] at hj
        obtain ⟨-, eq⟩ | eq := read i
        · rw [eq] at hi; exact absurd hi (other j l jk hj)
        · rw [eq] at hi; exact h.oneEach i j l hi hj
    · rw [entryAt_set_ne (Ne.symm ik)] at hi
      obtain ⟨rfl, eq⟩ | eq := read j
      · rw [eq] at hj; exact absurd hj (other i l ik hi)
      · rw [eq] at hj; exact h.oneEach i j l hi hj
  · obtain ⟨-, eq⟩ | eq := read j
    · rw [eq] at hl; exact below l hl
    · rw [eq] at hl; exact h.below j l hl

/-- Writing an entry that serves no block keeps the table's law, if the entry names a block below the limit. -/
theorem set_idle {k : Nat} {e : Entry} (below : ∀ l, e.l? = some l → l < limit) (none : e.serves? = none) :
    TableLaw limit (t.set k e) :=
  h.set below fun j l _ _ => by rw [none]; nofun

/-- A block that is served lies below the limit. -/
theorem served_below {k l : Nat} (hk : serves t k l) : l < limit := by
  refine h.below k l ?_
  obtain ⟨c, he⟩ | ⟨c, he⟩ := Entry.serves?_eq_some.mp hk <;> rw [he] <;> rfl

end TableLaw

/-- An entry that leaves service names the block it named. -/
theorem Entry.retire_l? (e : Entry) : e.retire.l? = e.l? := by cases e <;> rfl

/-- An entry that leaves service serves no block. -/
theorem Entry.retire_serves? (e : Entry) : e.retire.serves? = none := by cases e <;> rfl

/-- An entry that leaves service is RESERVED only if it was. -/
theorem Entry.retire_isReserved (e : Entry) : e.retire.isReserved = e.isReserved := by cases e <;> rfl

/-! ### What keeps the agreement -/

namespace MapAgrees

variable {limit : Nat} {t : List Entry} {m : MigrationUnit} (h : MapAgrees limit t m)

include h

/-- A change of table that keeps its law, the RESERVED entries, and the spares serving the block under migration. -/
theorem changeTable {t' : List Entry} (table : TableLaw limit t')
    (reserved : ∀ k l, entryAt t k = .reserved l → entryAt t' k = .reserved l)
    (isReserved : ∀ k, (entryAt t' k).isReserved = true → (entryAt t k).isReserved = true)
    (serve : ∀ x, m.context.move? = some x → ∀ k, serves t' k x.req.l ↔ serves t k x.req.l) : MapAgrees limit t' m := by
  refine ⟨table, h.waiting, fun idle k => ?_, fun x hx => ?_, h.pointer⟩
  · rw [← Bool.not_eq_true]
    exact fun hk => absurd (isReserved k hk) (h.idle idle k ▸ Bool.false_ne_true)
  · have law := h.move x hx
    exact ⟨law.block, law.target, law.source.trans (translate_congr h.table.oneEach table.oneEach (serve x hx)).symm,
      reserved _ _ law.reserved, fun k hk => law.only k (isReserved k hk)⟩

/-- One entry that is not RESERVED gives way to another such, which serves the same block or, apart from the block under migration,
another. -/
theorem changeEntry {k : Nat} {e : Entry} (table : TableLaw limit (t.set k e)) (was : (entryAt t k).isReserved = false)
    (now : e.isReserved = false)
    (serve : ∀ x, m.context.move? = some x → (e.serves? = some x.req.l ↔ serves t k x.req.l)) :
    MapAgrees limit (t.set k e) m := by
  refine h.changeTable table (fun j l hj => ?_) (fun j hj => ?_) fun x hx j => ?_
  · rw [entryAt_set, if_neg]
    · exact hj
    · rintro ⟨rfl, -⟩
      rw [hj] at was
      cases was
  · rw [entryAt_set] at hj
    split at hj
    · exact absurd hj (now ▸ Bool.false_ne_true)
    · exact hj
  · rw [serves, entryAt_set]
    split
    next hj => rw [← hj.1]; exact serve x hx
    · exact Iff.rfl

/-- A FREE spare that is withdrawn (R14, R23). -/
theorem retireFree {k : Nat} (free : entryAt t k = .free) :
    MapAgrees limit (t.set k (.retired none none false false)) m :=
  h.changeEntry (h.table.set_idle nofun rfl) (by rw [free]; rfl) rfl fun _ _ => by rw [serves, free]; exact Iff.rfl

/-- An entry that gives way to one in the same part of service: RESERVED neither before nor after, serving the same block, naming
none that is new. -/
theorem sameService {k : Nat} {e : Entry} (was : (entryAt t k).isReserved = false) (now : e.isReserved = false)
    (serve : e.serves? = (entryAt t k).serves?) (named : ∀ l, e.l? = some l → (entryAt t k).l? = some l) :
    MapAgrees limit (t.set k e) m :=
  h.changeEntry
    (h.table.set (fun l hl => h.table.below k l (named l hl)) fun j l ne hj he =>
      ne (h.table.oneEach j k l hj (by rw [serves, ← serve, he])))
    was now fun x _ => by rw [serve]; exact Iff.rfl

/-- The migration goes on: the same move, its copy pointer within the block. -/
theorem goOn {m' : MigrationUnit} (waiting : m'.waiting = m.waiting) (same : m'.context.move? = m.context.move?)
    (pointer : ∀ x p lock, m'.context = .copying x p lock → p < 64) : MapAgrees limit t m' := by
  refine ⟨h.table, by rw [waiting]; exact h.waiting, fun idle => h.idle ?_, by rw [same]; exact h.move, pointer⟩
  rw [idle] at same
  cases hc : m.context <;> rw [hc] at same <;> first | rfl | cases same

/-- A waiting list of blocks below the limit takes the place of another. -/
theorem changeWaiting {m' : MigrationUnit} (context : m'.context = m.context) (waiting : ∀ r ∈ m'.waiting, r.l < limit) :
    MapAgrees limit t m' :=
  ⟨h.table, waiting, by rw [context]; exact h.idle, by rw [context]; exact h.move, by rw [context]; exact h.pointer⟩

/-- The migration ends with its target FREE or withdrawn, and its request in the waiting list or gone (R12, R13). -/
theorem stop {x : Move} (hx : m.context.move? = some x) {e : Entry} (l : e.l? = none) (now : e.isReserved = false)
    (none : e.serves? = none) {m' : MigrationUnit} (idle : m'.context = .idle) (waiting : ∀ r ∈ m'.waiting, r.l < limit) :
    MapAgrees limit (t.set x.target e) m' := by
  have law := h.move x hx
  refine ⟨h.table.set_idle (fun l' hl => by rw [l] at hl; cases hl) none, waiting, fun _ k => ?_, fun y hy => ?_,
    fun y p lock hy => ?_⟩
  · rw [entryAt_set]
    split
    · exact now
    next elsewhere =>
      rw [← Bool.not_eq_true]
      intro hk
      have := law.only k hk
      exact elsewhere ⟨this.symm, by rw [h.table.length, this]; exact law.target⟩
  · rw [idle] at hy; cases hy
  · rw [idle] at hy; cases hy

/-- A start reserves a FREE spare for the block of a waiting request, whose translation stands (R10, R72). -/
theorem start {r : RetireRequest} {k : Nat} (idle : m.context = .idle) (block : r.l < limit) (inPool : k < 128)
    (free : entryAt t k = .free) {m' : MigrationUnit}
    (context : m'.context = .copying { req := r, source := translate limit t r.l, target := k } 0 none)
    (waiting : ∀ r ∈ m'.waiting, r.l < limit) : MapAgrees limit (t.set k (.reserved r.l)) m' := by
  have table : TableLaw limit (t.set k (.reserved r.l)) := h.table.set_idle (fun l hl => by cases hl; exact block) rfl
  have same : ∀ j, serves (t.set k (.reserved r.l)) j r.l ↔ serves t j r.l := fun j => by
    rw [serves, entryAt_set]
    split
    next hj => rw [← hj.1, serves, free]; exact ⟨nofun, nofun⟩
    · exact Iff.rfl
  refine ⟨table, waiting, fun h => ?_, fun x hx => ?_, fun x p lock hx => ?_⟩
  · rw [context] at h; cases h
  · rw [context] at hx
    cases hx
    refine ⟨block, inPool, (translate_congr h.table.oneEach table.oneEach same).symm,
      entryAt_set_self (by rw [h.table.length]; exact inPool) _, fun j hj => ?_⟩
    rw [entryAt_set] at hj
    split at hj
    next hj' => exact hj'.1.symm
    · exact absurd hj (h.idle idle j ▸ Bool.false_ne_true)
  · rw [context] at hx
    cases hx
    exact Nat.zero_lt_succ _

/-- The commit puts the target into service for its block, and a spare that served it out of service (R11, R85). -/
theorem commit {x : Move} (hx : m.context.move? = some x) {m' : MigrationUnit} (idle : m'.context = .idle)
    (waiting : m'.waiting = m.waiting) : MapAgrees limit (commitTable limit t x) m' := by
  have law := h.move x hx
  have inside : x.target < t.length := by rw [h.table.length]; exact law.target
  have target : ∀ k, ¬serves t x.target k := fun k hk => by rw [serves, law.reserved] at hk; cases hk
  have table : TableLaw limit (commitTable limit t x) ∧ ∀ k, (entryAt (commitTable limit t x) k).isReserved = false := by
    have reserved : ∀ k, (entryAt (t.set x.target (.soft x.req.l false)) k).isReserved = false := fun k => by
      rw [entryAt_set]
      split
      · rfl
      next elsewhere =>
        rw [← Bool.not_eq_true]
        intro hk
        have := law.only k hk
        exact elsewhere ⟨this.symm, this ▸ inside⟩
    have soft : ∀ l, (Entry.soft x.req.l false).l? = some l → l < limit := fun l hl => by cases hl; exact law.block
    unfold commitTable
    dsimp only
    split
    next home =>
      refine ⟨h.table.set soft fun j l _ hj hl => ?_, reserved⟩
      cases hl
      rw [law.source, translate_of_serves h.table.oneEach hj] at home
      omega
    next spare =>
      obtain ⟨k, hk⟩ : ∃ k, serves t k x.req.l := by
        by_contra unserved
        push Not at unserved
        rw [law.source, translate_of_none unserved] at spare
        exact spare law.block
      have source : x.source - limit = k := by
        rw [law.source, translate_of_serves h.table.oneEach hk]
        omega
      have ne : x.target ≠ k := fun same => target _ (same ▸ hk)
      rw [source, entryAt_set_ne ne, List.set_comm _ _ ne]
      have retired : TableLaw limit (t.set k (entryAt t k).retire) :=
        h.table.set_idle (fun l hl => h.table.below k l (by rwa [Entry.retire_l?] at hl)) (Entry.retire_serves? _)
      refine ⟨retired.set soft fun j l _ hj hl => ?_, fun j => ?_⟩
      · cases hl
        rw [serves, entryAt_set] at hj
        split at hj
        · rw [Entry.retire_serves?] at hj; cases hj
        next elsewhere =>
          have jk := h.table.oneEach j k _ hj hk
          exact elsewhere ⟨jk.symm, serves_lt hj⟩
      · rw [List.set_comm _ _ (Ne.symm ne), entryAt_set]
        split
        next hj =>
          obtain ⟨c, he⟩ | ⟨c, he⟩ := Entry.serves?_eq_some.mp hk <;> rw [he] <;> rfl
        · exact reserved j
  refine ⟨table.1, by rw [waiting]; exact h.waiting, fun _ => table.2, fun y hy => ?_, fun y p lock hy => ?_⟩
  · rw [idle] at hy; cases hy
  · rw [idle] at hy; cases hy

/-- MAP_SOFT puts a FREE spare into service for a block that no request holds, and a HARD spare that served it out of service
(R21). -/
theorem mapSoft {l k : Nat} (block : l < limit) (free : entryAt t k = .free) (notHeld : l ∉ m.blocks)
    (notSoft : softFor t l = none) : MapAgrees limit (mapSoftTable t l k) m := by
  have held : ∀ x, m.context.move? = some x → x.req.l ≠ l := by
    rintro x hx rfl
    refine notHeld ?_
    rw [MigrationUnit.blocks, List.mem_append]
    left
    cases hc : m.context <;> rw [hc] at hx <;> cases hx <;> exact List.mem_singleton_self _
  have soft : ∀ l', (Entry.soft l false).l? = some l' → l' < limit := fun l' hl => by cases hl; exact block
  have put : ∀ {t' : List Entry}, MapAgrees limit t' m → entryAt t' k = .free → (∀ j, ¬serves t' j l) →
      MapAgrees limit (t'.set k (.soft l false)) m := fun {t'} h' free' unserved =>
    h'.changeEntry (h'.table.set soft fun j l' _ hj hl => by cases hl; exact unserved j hj) (by rw [free']; rfl) rfl
      fun x hx => by
        rw [serves, free']
        exact ⟨fun hl => absurd (Option.some.inj hl).symm (held x hx), nofun⟩
  have hardOnly : ∀ j, serves t j l → ∃ c, entryAt t j = .hard l c := fun j hj => by
    obtain ⟨c, he⟩ | ⟨c, he⟩ := Entry.serves?_eq_some.mp hj
    · exact absurd (he ▸ entryAt_mem (serves_lt hj)) (softFor_eq_none.mp notSoft c)
    · exact ⟨c, he⟩
  unfold mapSoftTable
  split
  next i hi =>
    obtain ⟨inside, c, he⟩ := entryAt_of_hardFor hi
    have hs : serves t i l := by rw [serves, he]; rfl
    have ne : i ≠ k := by rintro rfl; rw [free] at he; cases he
    refine put (h.changeEntry
      (h.table.set_idle (fun l' hl => h.table.below i l' (by rwa [Entry.retire_l?] at hl)) (Entry.retire_serves? _))
      (by rw [he]; rfl) (by rw [he]; rfl) fun x hx => ?_) (by rw [entryAt_set_ne ne, free]) fun j hj => ?_
    · rw [Entry.retire_serves?, serves, he]
      exact ⟨nofun, fun hl => absurd (Option.some.inj hl).symm (held x hx)⟩
    · rw [serves, entryAt_set] at hj
      split at hj
      · rw [Entry.retire_serves?] at hj; cases hj
      next elsewhere => exact elsewhere ⟨h.table.oneEach i j l hs hj, serves_lt hj⟩
  next noHard =>
    refine put h free fun j hj => ?_
    obtain ⟨c, he⟩ := hardOnly j hj
    exact hardFor_eq_none.mp noHard c (he ▸ entryAt_mem (serves_lt hj))

/-- UNMAP_SOFT takes a SOFT spare out of service for a block that no request holds (R22). -/
theorem unmap {k l : Nat} {p : Bool} (soft : entryAt t k = .soft l p) (notHeld : l ∉ m.blocks) :
    MapAgrees limit (t.set k .free) m := by
  refine h.changeEntry (h.table.set_idle nofun rfl) (by rw [soft]; rfl) rfl fun x hx => ?_
  rw [serves, soft]
  refine ⟨nofun, fun hl => absurd ?_ notHeld⟩
  cases hl
  rw [MigrationUnit.blocks, List.mem_append]
  left
  cases hc : m.context <;> rw [hc] at hx <;> cases hx <;> exact List.mem_singleton_self _

end MapAgrees

end Sys2Proof.Machine
end

section
/-! The law of the remap table and the migration context under every step (R5, R10, R65, R70): each operation keeps it by the kind of
change it makes. -/

namespace Sys2Proof.Machine

/-! ### Entries that stand for the same -/

theorem set_entryAt (t : List Entry) (k : Nat) : t.set k (entryAt t k) = t := by
  rcases Nat.lt_or_ge k t.length with inside | beyond
  · rw [entryAt_eq_getElem inside, List.set_getElem_self]
  · exact List.set_eq_of_length_le beyond

/-- An entry replaced by one that names and serves the same blocks and is RESERVED alike keeps the agreement. -/
theorem MapAgrees.setAlike {limit : Nat} {t : List Entry} {m : MigrationUnit} (h : MapAgrees limit t m) {k : Nat} {e : Entry}
    (named : e.l? = (entryAt t k).l?) (serve : e.serves? = (entryAt t k).serves?)
    (reserved : e.isReserved = (entryAt t k).isReserved) : MapAgrees limit (t.set k e) m := by
  cases was : (entryAt t k).isReserved with
  | false => exact h.sameService was (reserved.trans was) serve fun l hl => named ▸ hl
  | true =>
    have same : e = entryAt t k := by
      rw [was] at reserved
      cases he : entryAt t k <;> rw [he] at was named <;> cases was
      cases e <;> cases reserved
      cases named
      rfl
    rwa [same, set_entryAt]

theorem Entry.setPending_l? (e : Entry) : e.setPending.l? = e.l? := by cases e <;> rfl

theorem Entry.setPending_serves? (e : Entry) : e.setPending.serves? = e.serves? := by cases e <;> rfl

theorem Entry.setPending_isReserved (e : Entry) : e.setPending.isReserved = e.isReserved := by cases e <;> rfl

theorem Entry.verified_l? (e : Entry) (record : FuseRecord) (slot : Nat) (isMatch : Bool) :
    (e.verified record slot isMatch).l? = e.l? := by
  cases isMatch <;> cases record <;> cases e <;> rfl

theorem Entry.verified_serves? (e : Entry) (record : FuseRecord) (slot : Nat) (isMatch : Bool) :
    (e.verified record slot isMatch).serves? = e.serves? := by
  cases isMatch <;> cases record <;> cases e <;> rfl

theorem Entry.verified_isReserved (e : Entry) (record : FuseRecord) (slot : Nat) (isMatch : Bool) :
    (e.verified record slot isMatch).isReserved = e.isReserved := by
  cases isMatch <;> cases record <;> cases e <;> rfl

/-! ### The operations of the units -/

/-- A state with the capacity of s obeys the law if table and migration unit agree under the limit of s. -/
theorem mapLaw_of {s u : State} (capacity : u.fuse.capacity = s.fuse.capacity) (h : MapAgrees s.limit u.table u.mig) :
    MapLaw u := by
  rw [mapLaw_iff, State.limit_eq capacity]
  exact h

section Operations

variable {s u : State} (h : MapLaw s)

include h

theorem MapLaw.agrees : MapAgrees s.limit s.table s.mig := mapLaw_iff.mp h

/-- A change of neither table, waiting list nor context. -/
theorem MapLaw.congr (capacity : u.fuse.capacity = s.fuse.capacity) (table : u.table = s.table)
    (context : u.mig.context = s.mig.context) (waiting : u.mig.waiting = s.mig.waiting) : MapLaw u := by
  refine mapLaw_of capacity (table ▸ h.agrees.changeWaiting context ?_)
  rw [waiting]
  exact h.agrees.waiting

/-- A change of units that table and migration unit do not belong to. -/
theorem MapLaw.elsewhere (fuse : u.fuse = s.fuse) (table : u.table = s.table) (mig : u.mig = s.mig) : MapLaw u :=
  h.congr (by rw [fuse]) table (by rw [mig]) (by rw [mig])

/-- The copy of a quad goes on: another phase of the lock, or the next quad of the block. -/
theorem MapLaw.copying {m : Move} {p p' : Nat} {lock lock' : Option Lock} (context : s.mig.context = .copying m p lock)
    (inBlock : p' < 64) (capacity : u.fuse.capacity = s.fuse.capacity) (table : u.table = s.table)
    (waiting : u.mig.waiting = s.mig.waiting) (now : u.mig.context = .copying m p' lock') : MapLaw u :=
  mapLaw_of capacity (table ▸ h.agrees.goOn waiting (by rw [now, context]; rfl) fun _ _ _ hx => by
    rw [now] at hx
    cases hx
    exact inBlock)

/-- A request that a migration carries lies below the limit. -/
theorem MapLaw.request {m : Move} (hm : s.mig.context.move? = some m) : m.req.l < s.limit := (h.agrees.move m hm).block

theorem MapLaw.commitMove {m : Move} (hm : s.mig.context.move? = some m) : MapLaw (s.commitMove m) := by
  refine mapLaw_of (s := s) (by simp) ?_
  rw [State.commitMove_table]
  exact h.agrees.commit hm rfl (by simp [State.commitMove])

theorem MapLaw.tryCommit : MapLaw s.tryCommit := by
  unfold State.tryCommit
  split
  next m context =>
    split
    · exact h
    · exact h.commitMove (by rw [context]; rfl)
  · exact h

theorem MapLaw.tryRead : MapLaw s.tryRead := by
  unfold State.tryRead
  split
  next m p context =>
    split
    · exact h
    · exact h.copying context (h.agrees.pointer m p _ context) rfl rfl rfl rfl
  · exact h

theorem MapLaw.writeRemoved (e : OutEntry) : MapLaw (s.writeRemoved e) := by
  unfold State.writeRemoved
  split
  · split
    · split
      · exact h.tryRead
      · exact h
    · split
      · exact h.tryCommit
      · exact h
    · exact h
  · exact h

/-- A migration that stops leaves its target FREE (R12). -/
theorem MapLaw.stopMove {m : Move} (hm : s.mig.context.move? = some m) (lock : Option Lock) (record : RecordBody)
    {waiting : List RetireRequest} (below : ∀ r ∈ waiting, r.l < s.limit)
    (capacity : u.fuse.capacity = s.fuse.capacity) (table : u.table = (s.stopMove m lock record).table)
    (mig : u.mig.waiting = waiting ∧ u.mig.context = .idle) : MapLaw u := by
  refine mapLaw_of capacity ?_
  rw [table, State.stopMove, State.hand_table, State.releaseTarget_table, State.releaseLock_table]
  exact h.agrees.stop hm rfl rfl rfl mig.2 (by rw [mig.1]; exact below)

theorem MapLaw.failTarget {m : Move} (hm : s.mig.context.move? = some m) (lock : Option Lock) (cause : TargetCause)
    (firing : Option Nat) : MapLaw (s.failTarget m lock cause firing) := by
  refine mapLaw_of (s := s) (by simp) ?_
  have waiting : ∀ r ∈ (s.failTarget m lock cause firing).mig.waiting, r.l < s.limit := by
    unfold State.failTarget State.retryDecision
    split
    · intro r hr
      simp only [State.toIdle_mig, State.hand_mig, State.retireTarget_mig, State.releaseLock_mig] at hr
      exact h.agrees.waiting r hr
    · intro r hr
      simp only [State.toIdle_mig, State.returnRequest_mig, State.hand_mig, State.retireTarget_mig, State.releaseLock_mig,
        List.mem_cons] at hr
      obtain rfl | hr := hr
      · exact h.request hm
      · exact h.agrees.waiting r hr
  have table : (s.failTarget m lock cause firing).table = s.table.set m.target (.retired none none false false) := by
    rw [State.failTarget, State.toIdle_table, State.retryDecision_table, State.hand_table, State.retireTarget_table,
      State.releaseLock_table]
  rw [table]
  exact h.agrees.stop hm rfl rfl rfl rfl waiting

theorem MapLaw.copyWritten {m : Move} {p : Nat} {lock : Option Lock} (context : s.mig.context = .copying m p lock) :
    MapLaw (s.copyWritten m p) := by
  unfold State.copyWritten
  split
  next inBlock => exact h.copying context inBlock rfl rfl rfl rfl
  · refine MapLaw.tryCommit (mapLaw_of (s := s) rfl (h.agrees.goOn rfl ?_ nofun))
    rw [context]
    rfl

theorem MapLaw.copyResponse (t : Tag) (a : Answer) : MapLaw (copyResponse t a s) := by
  unfold Machine.copyResponse
  split
  next m p c context =>
    split
    · exact h.copying (lock' := some (.writing (copyBuffer a) none)) context (h.agrees.pointer m p _ context)
        (by simp) (by simp) rfl rfl
    · exact h
  next m p b c context =>
    split
    · split
      · exact h.failTarget (by rw [context]; rfl) ..
      · exact h.copyWritten context
    · exact h
  · exact h

theorem MapLaw.requestResponse (k : Nat) (t : Tag) (e : OutEntry) (a : Answer) : MapLaw (requestResponse k t e a s) := by
  have reported : ∀ x : Slot, MapLaw (s.reportIfSecondFailed x e t a) := fun x => by
    unfold State.reportIfSecondFailed
    split
    · exact h.congr rfl rfl rfl rfl
    · exact h
  unfold Machine.requestResponse
  split
  · exact h
  next x _ =>
    dsimp only
    split
    · exact (reported x).elsewhere rfl rfl rfl
    · split <;> exact (reported x).elsewhere rfl rfl rfl

theorem MapLaw.patrolResponse (t : Tag) (a : Answer) : MapLaw (patrolResponse t a s) := by
  have retired : ∀ k, MapLaw (s.patrolRetire k) := fun k => by
    unfold State.patrolRetire State.retireIfFree
    cases free : entryAt s.table k with
    | free => exact mapLaw_of (s := s) rfl (h.agrees.retireFree free)
    | reserved | soft | hard | retired => exact h
  unfold Machine.patrolResponse
  split
  next b q t' deadline _ =>
    split
    · split
      · exact (retired (b - s.limit)).elsewhere (by simp) (by simp) (by simp)
      · exact h.elsewhere (by simp) (by simp) (by simp)
    · exact h
  · exact h

theorem MapLaw.route (t : Tag) (e : OutEntry) (a : Answer) : MapLaw (s.route t e a) := by
  unfold State.route
  split
  · exact h.requestResponse ..
  · exact h.copyResponse ..
  · exact h.patrolResponse ..

/-- The state's limit stands while a status report is taken, and table and migration unit agree under it. -/
theorem MapLaw.takeReport (r : StatusReport) : MapLaw (s.takeReport r) := by
  refine mapLaw_of (s := s) (by simp) (takeReport_keeps (P := fun u => MapAgrees s.limit u.table u.mig)
    (C := fun l => l < s.limit) (fun _ _ hu => hu) (fun _ _ hu => hu) ?_ ?_ ?_ ?_ (fun _ hl => hl) h.agrees)
  · intro u l p hu hl _ _
    refine hu.changeWaiting rfl fun q hq => ?_
    obtain hq | rfl := List.mem_append.mp hq |>.imp_right List.mem_singleton.mp
    · exact hu.waiting q hq
    · exact hl
  · exact fun u k hu free => hu.retireFree free
  · exact fun u f hu => hu.changeWaiting rfl hu.waiting
  · exact fun u k l hu hk => hu.table.served_below hk

theorem MapLaw.reportStatuses (e : OutEntry) (a : Answer) (first : Bool) : MapLaw (s.reportStatuses e a first) := by
  unfold State.reportStatuses
  split
  · split
    · exact h.takeReport _
    · exact h.elsewhere rfl rfl rfl
  · exact h

theorem MapLaw.startRequest {i : Nat} {r : RetireRequest} (may : s.mayStart = true)
    (waiting : s.mig.waiting[i]? = some r) : MapLaw (s.startRequest i r) := by
  have idle : s.mig.context = .idle := by
    simp only [State.mayStart, Bool.and_eq_true, beq_iff_eq] at may
    exact may.1.1
  have block : r.l < s.limit := h.agrees.waiting r (List.mem_of_getElem? waiting)
  have left : ∀ q ∈ s.mig.waiting.eraseIdx i, q.l < s.limit := fun q hq =>
    h.agrees.waiting q (List.mem_of_mem_eraseIdx hq)
  unfold State.startRequest
  dsimp only
  split
  next k spare =>
    obtain ⟨inPool, free, -⟩ := eligibleSpare_spec spare
    exact mapLaw_of (s := s) rfl (h.agrees.start idle block inPool free rfl left)
  · split <;> exact mapLaw_of (s := s) rfl (h.agrees.changeWaiting rfl left)

theorem MapLaw.migrationReset : MapLaw s.migrationReset := by
  unfold State.migrationReset
  split
  · exact h
  next m p lock context =>
    have hm : s.mig.context.move? = some m := by rw [context]; rfl
    refine h.stopMove hm lock (.migAborted m.req.l .portReset) (waiting := m.req :: s.mig.waiting) (fun r hr => ?_)
      (by simp) rfl ⟨by simp, rfl⟩
    obtain rfl | hr := List.mem_cons.mp hr
    · exact h.request hm
    · exact h.agrees.waiting r hr
  next m context => exact h.commitMove (by rw [context]; rfl)

theorem MapLaw.takeFailure (r : FailureReport) : MapLaw (s.takeFailure r) := by
  unfold State.takeFailure
  split
  next m p lock context =>
    split
    · exact h.failTarget (by rw [context]; rfl) ..
    · exact h
  · exact h

theorem MapLaw.grant (w : Winner) : MapLaw (s.grant w) := by
  cases w with
  | relay => exact h.elsewhere (by simp [State.grant]) (by simp) (by simp [State.grant])
  | copy =>
    unfold State.grant State.grantCopy
    dsimp only
    split
    next context => exact h.copying context (h.agrees.pointer _ _ _ context) rfl rfl rfl rfl
    next context => exact h.copying context (h.agrees.pointer _ _ _ context) rfl rfl rfl rfl
    · exact h
  | patrol =>
    unfold State.grant State.grantPatrol
    dsimp only
    split
    · exact h.elsewhere rfl rfl rfl
    · exact h

theorem MapLaw.takeGrant : MapLaw s.takeGrant := by
  have tested : MapLaw s.headTested := h.elsewhere (by simp) (by simp) (by simp)
  unfold State.takeGrant
  split
  · exact h
  · split
    · split
      · exact tested
      · exact tested.grant _
    · exact h.grant .relay
  · exact h.grant _

/-- Every event keeps the agreement of table and context. -/
theorem MapLaw.event (hu : s.Event u) : MapLaw u := by
  cases hu with
  | nothing => exact h
  | passes | rise | overrun | rejected | credits | gapExpired | offered | skipped | decayed | fweChanged | recordTaken
  | orphaned | heldTimeout => exact h.elsewhere rfl rfl rfl
  | bitReported | markerReported | ready | readyReleased | riseReleased | startEventSpent => exact h.congr rfl rfl rfl rfl
  | accepted | queuedTimeout | heldTimeoutUnstalls | patrolTimeout =>
    exact h.elsewhere (by simp) (by simp) (by simp)
  | ticks | ticksAndDecayed =>
    exact h.congr (by simp [State.passMilliseconds_fuse]) (by simp) (by simp) (by simp)
  | fall =>
    have emptied : MapLaw { s with
        prstN := false, req := s.req.emptied, arb := s.arb.inReset, patrol := { s.patrol with state := .off } } :=
      h.elsewhere rfl rfl rfl
    exact emptied.migrationReset
  | grant => exact h.takeGrant
  | response tag e a first =>
    have removed : MapLaw (s.removeTag tag) := h.elsewhere rfl rfl rfl
    exact ((removed.reportStatuses e a first).route tag e a).writeRemoved e
  | report k r =>
    have left : MapLaw { s with watch := { s.watch with reports := s.watch.reports.eraseIdx k } } := h.elsewhere rfl rfl rfl
    exact left.takeReport r
  | failure k r =>
    have left : MapLaw (s.setMig { s.mig with failures := s.mig.failures.eraseIdx k }) := h.congr rfl rfl rfl rfl
    exact left.takeFailure r
  | started i r may _ waiting => exact h.startRequest may waiting
  | claimed m p context inBlock =>
    have claimed : MapLaw (s.setMig { s.mig with context := .copying m p (some .claimed) }) :=
      h.copying context inBlock rfl rfl rfl rfl
    exact claimed.tryRead
  | drained => exact h.tryRead
  | committed => exact h.tryCommit
  | copyReadTimeout m p c context =>
    have passed : MapLaw (s.advanceTo c.deadline) := h.elsewhere rfl rfl rfl
    exact passed.stopMove (m := m) (by rw [State.advanceTo_mig, context]; rfl) (some (.reading (some c)))
      (.migFailed m.req.l .timeout) passed.agrees.waiting (by simp) rfl ⟨by simp, rfl⟩
  | copyWriteTimeout m p b c context =>
    have passed : MapLaw (s.advanceTo c.deadline) := h.elsewhere rfl rfl rfl
    exact passed.failTarget (by rw [State.advanceTo_mig, context]; rfl) ..
  | verified slot record timer =>
    have ended : MapAgrees s.limit (s.table.set record.spare ((entryAt s.table record.spare).verified record slot
        (s.fuseArray.getD slot 0#40 == record.word))) s.mig :=
      h.agrees.setAlike (Entry.verified_l? ..) (Entry.verified_serves? ..) (Entry.verified_isReserved ..)
    exact mapLaw_of (s := s) rfl (ended.changeWaiting rfl ended.waiting)

/-- Every command keeps the agreement of table and context. -/
theorem MapLaw.command (hu : s.Commanded u) : MapLaw u := by
  cases hu with
  | unchanged => exact h
  | rearmed | acknowledged => exact h.elsewhere rfl rfl rfl
  | cleared => exact h.elsewhere (by simp) (by simp) (by simp)
  | paramSet p v => cases p <;> exact h.elsewhere rfl rfl rfl
  | mapped l k belowLimit _ free _ notHeld notSoft =>
    refine mapLaw_of (s := s) rfl (h.agrees.mapSoft belowLimit free ?_ notSoft)
    rw [← MigrationUnit.holds_iff, notHeld]
    exact Bool.false_ne_true
  | unmapped k l _ soft notHeld =>
    refine mapLaw_of (s := s) rfl (h.agrees.unmap soft ?_)
    rw [← MigrationUnit.holds_iff, notHeld]
    exact Bool.false_ne_true
  | banned k _ free => exact mapLaw_of (s := s) rfl (h.agrees.retireFree free)
  | retiring l belowLimit =>
    refine mapLaw_of (s := s) rfl (h.agrees.changeWaiting rfl fun q hq => ?_)
    obtain hq | rfl := List.mem_append.mp hq |>.imp_right List.mem_singleton.mp
    · exact h.agrees.waiting q hq
    · exact belowLimit
  | cancelled l =>
    exact mapLaw_of (s := s) rfl (h.agrees.changeWaiting rfl fun q hq => h.agrees.waiting q (List.mem_of_mem_eraseP hq))
  | aborted m p lock context =>
    exact h.stopMove (m := m) (by rw [context]; rfl) lock (.migAborted m.req.l .manual) h.agrees.waiting (by simp) rfl
      ⟨by simp, rfl⟩
  | committing ptr l record =>
    exact mapLaw_of (s := s) rfl
      (h.agrees.setAlike (Entry.setPending_l? _) (Entry.setPending_serves? _) (Entry.setPending_isReserved _))

end Operations

/-! ### LOADING (R154 to R156) -/

/-- The entries LOADING makes: FREE, HARD and RETIRED. -/
def Entry.ofLoading (e : Entry) : Prop := e.isReserved = false ∧ ∀ l p, e ≠ .soft l p

/-- A table of LOADING obeys the table's law and holds no entry but those of LOADING. -/
structure LoadingTable (limit : Nat) (t : List Entry) : Prop where
  law : TableLaw limit t
  only : ∀ k, (entryAt t k).ofLoading

namespace LoadingTable

variable {limit : Nat} {t : List Entry} (h : LoadingTable limit t)

include h

theorem setEntry {k : Nat} {e : Entry} (law : TableLaw limit (t.set k e)) (made : e.ofLoading) :
    LoadingTable limit (t.set k e) := by
  refine ⟨law, fun j => ?_⟩
  rw [entryAt_set]
  split
  · exact made
  · exact h.only j

theorem retire (k : Nat) : LoadingTable limit (t.set k (entryAt t k).retire) := by
  refine h.setEntry (h.law.set_idle (fun l hl => h.law.below k l (by rwa [Entry.retire_l?] at hl))
    (Entry.retire_serves? _)) ⟨?_, ?_⟩
  · rw [Entry.retire_isReserved]
    exact (h.only k).1
  · intro l p
    cases entryAt t k <;> nofun

/-- A HARD entry for a block in range that no entry serves. -/
theorem hard {k l slot : Nat} (below : l < limit) (unserved : ∀ j, ¬serves t j l) :
    LoadingTable limit (t.set k (.hard l slot)) :=
  h.setEntry (h.law.set (fun l' hl => by cases hl; exact below) fun j l' _ hj hl => by cases hl; exact unserved j hj)
    ⟨rfl, nofun⟩

theorem applySlot (k : Nat) (i : SlotImage) : LoadingTable limit (applySlot limit t k i).1 := by
  unfold Machine.applySlot
  split
  · split
    next l s _ =>
      unfold applyMap
      split
      · exact h
      next below =>
        split
        · exact h
        · unfold applyMapTable
          split
          next j hj =>
            obtain ⟨inside, c, he⟩ := entryAt_of_hardFor hj
            have hs : serves t j l := by rw [serves, he]; rfl
            refine (h.retire j).hard (Nat.not_le.mp below) fun i hi => ?_
            rw [serves, entryAt_set] at hi
            split at hi
            · rw [Entry.retire_serves?] at hi; cases hi
            next elsewhere => exact elsewhere ⟨h.law.oneEach j i l hs hi, serves_lt hi⟩
          next noHard =>
            refine h.hard (Nat.not_le.mp below) fun i hi => ?_
            obtain ⟨c, he⟩ | ⟨c, he⟩ := Entry.serves?_eq_some.mp hi
            · exact (h.only i).2 l c he
            · exact hardFor_eq_none.mp noHard c (he ▸ entryAt_mem (serves_lt hi))
    next s _ =>
      unfold applyBan
      split
      · exact h
      · exact h.setEntry (h.law.set_idle (fun l hl => h.law.below s l hl) rfl) ⟨rfl, nofun⟩
  · exact h

theorem applySlots (is : List SlotImage) (k : Nat) : LoadingTable limit (applySlots limit t k is).1 := by
  induction is generalizing t k with
  | nil => exact h
  | cons i is ih => exact ih (h.applySlot k i) (k + 1)

end LoadingTable

theorem entryAt_replicate (n k : Nat) : entryAt (List.replicate n .free) k = .free := by
  rcases Nat.lt_or_ge k n with inside | beyond
  · rw [entryAt_eq_getElem (by simpa using inside), List.getElem_replicate]
  · exact entryAt_of_ge (by simpa using beyond)

/-- A table of 128 FREE entries, as LOADING starts from. -/
theorem LoadingTable.start (limit : Nat) : LoadingTable limit (List.replicate 128 .free) := by
  refine ⟨⟨List.length_replicate, fun j k l hj => ?_, fun k l hl => ?_⟩, fun k => ?_⟩
  · rw [serves, entryAt_replicate] at hj; cases hj
  · rw [entryAt_replicate] at hl; cases hl
  · rw [entryAt_replicate]; exact ⟨rfl, nofun⟩

/-- A table of LOADING agrees with a migration unit at its power-on values. -/
theorem LoadingTable.agrees {limit : Nat} {t : List Entry} (h : LoadingTable limit t) :
    MapAgrees limit t { waiting := [], context := .idle, startEvent := false, failures := [] } :=
  ⟨h.law, nofun, fun _ k => (h.only k).1, nofun, nofun⟩

theorem loadedOf_loading (limit : Nat) (array : List FuseWord) : LoadingTable limit (loadedOf limit array).1 :=
  (LoadingTable.start limit).applySlots (imagesOf array) 0

theorem mapLaw_powerOn (s : State) (straps : Straps) (prst mcs : Bool) : MapLaw (powerOnEffect straps prst mcs s) := by
  rw [mapLaw_iff]
  exact (loadedOf_loading ((Capacity.ofStraps straps.cap).blocks - Config.spares) s.fuseArray).agrees

theorem mapLaw_kept : KeptByParts MapLaw where
  pending := fun _ _ h => h.elsewhere rfl rfl rfl
  port := fun _ _ _ h => h.elsewhere rfl rfl rfl
  powerOn := fun s straps prst mcs _ => mapLaw_powerOn s straps prst mcs
  powerLoss := fun _ _ _ => mapLaw_iff.mpr (LoadingTable.start _).agrees
  event := fun _ _ _ h hu => h.event hu
  command := fun _ _ h hu => h.command hu

/-- Settles O59: `MapAgrees` is kept by each kind of change that an operation makes of table, waiting list and context. -/
theorem mapLawsKept : Obligations.MapLawsKept := ⟨fun _ _ => retireLaw_kept.step, fun _ _ => mapLaw_kept.step⟩

end Sys2Proof.Machine
end

section
/-! The upstream credits under every step (R25, R26, R46 to R48): credits and slots in use together are conserved by every event but
those that open and close the upstream link. -/

namespace Sys2Proof.Machine

/-! ### Slots in use -/

/-- The slot with number k in a tracker. -/
def RequestUnit.slot? (r : RequestUnit) (k : Nat) : Option Slot := r.slots.getD k none

theorem State.slot?_eq (s : State) (k : Nat) : s.slot? k = s.req.slot? k := rfl

theorem RequestUnit.slot?_eq_some {r : RequestUnit} {k : Nat} {x : Slot} :
    r.slot? k = some x ↔ r.slots[k]? = some (some x) := by
  rw [RequestUnit.slot?, List.getD_eq_getElem?_getD]
  cases r.slots[k]? <;> simp

/-- The slot read after a write: the one written, at its own number within the tracker. -/
theorem getD_set (t : List (Option Slot)) (k : Nat) (x : Option Slot) (j : Nat) :
    (t.set k x).getD j none = if k = j ∧ j < t.length then x else t.getD j none := by
  simp only [List.getD_eq_getElem?_getD, List.getElem?_set]
  by_cases same : k = j
  · subst same
    by_cases inside : k < t.length
    · simp [inside]
    · simp [inside]
  · simp [same]

/-- A slot taken or freed changes the number of slots in use by one; one that stays in use leaves it (R25). -/
theorem countP_set_isSome {t : List (Option Slot)} {k : Nat} (inside : k < t.length) (x : Option Slot) :
    (t.set k x).countP Option.isSome + (if (t.getD k none).isSome then 1 else 0) =
      t.countP Option.isSome + (if x.isSome then 1 else 0) := by
  have read : t.getD k none = t[k] := by simp [List.getD_eq_getElem?_getD, inside]
  rw [List.countP_set inside, read]
  have counted : (if t[k].isSome = true then 1 else 0) ≤ t.countP Option.isSome := by
    split
    next some => exact List.countP_pos_iff.mpr ⟨t[k], List.getElem_mem inside, some⟩
    · exact Nat.zero_le _
  omega

theorem lt_of_getD {t : List (Option Slot)} {k : Nat} {x : Slot} (h : t.getD k none = some x) : k < t.length :=
  Nat.lt_of_not_le fun beyond => by simp [List.getD_eq_getElem?_getD, List.getElem?_eq_none beyond] at h

theorem countP_modify_isSome (t : List (Option Slot)) (k : Nat) (f : Slot → Slot) :
    (t.modify k (Option.map f)).countP Option.isSome = t.countP Option.isSome := by
  induction t generalizing k with
  | nil => rw [List.modify_nil]
  | cons x t ih => cases k <;> simp [List.countP_cons, ih]

/-! ### Credits and slots in use (R25) -/

/-- The upstream credits granted and not yet seen used, with the slots in use (R25). -/
def RequestUnit.places (r : RequestUnit) : Nat := r.credits + r.inUse

/-- From s to u neither the size of the tracker nor the sum of credits and slots in use has changed. -/
def State.keepsPlaces (s u : State) : Prop := u.req.slots.length = s.req.slots.length ∧ u.req.places = s.req.places

namespace State.keepsPlaces

variable {s u v : State}

theorem of_eq (h : u.req = s.req) : s.keepsPlaces u := by rw [State.keepsPlaces, h]; exact ⟨rfl, rfl⟩

theorem refl (s : State) : s.keepsPlaces s := of_eq rfl

theorem trans (h : s.keepsPlaces u) (h' : u.keepsPlaces v) : s.keepsPlaces v := ⟨h'.1.trans h.1, h'.2.trans h.2⟩

/-- A change that leaves the request unit alone may follow. -/
theorem then_eq (h : s.keepsPlaces u) (e : v.req = u.req) : s.keepsPlaces v := h.trans (of_eq e)

end State.keepsPlaces

section Operations

variable {s : State}

/-- A slot in use replaced by another. -/
theorem keepsPlaces_set {u : State} {k : Nat} {x y : Slot} (slot : s.slot? k = some x)
    (slots : u.req.slots = s.req.slots.set k (some y)) (credits : u.req.credits = s.req.credits) : s.keepsPlaces u := by
  have counted := countP_set_isSome (lt_of_getD slot) (some y)
  rw [show s.req.slots.getD k none = some x from slot] at counted
  refine ⟨by rw [slots, List.length_set], ?_⟩
  rw [RequestUnit.places, RequestUnit.places, RequestUnit.inUse, RequestUnit.inUse, slots, credits]
  simpa using counted

/-- A slot freed with its credit granted back (R26). -/
theorem State.freeSlotCredit_keepsPlaces {k : Nat} {x : Slot} (slot : s.slot? k = some x) :
    s.keepsPlaces (s.freeSlotCredit k) := by
  have counted := countP_set_isSome (lt_of_getD slot) none
  rw [show s.req.slots.getD k none = some x from slot] at counted
  refine ⟨List.length_set, ?_⟩
  change s.req.credits + 1 + (s.req.slots.set k none).countP Option.isSome = s.req.credits + s.req.slots.countP Option.isSome
  simp only [Option.isSome_some, Option.isSome_none, if_true, Bool.false_eq_true, if_false] at counted
  omega

theorem State.moveToHold_keepsPlaces (k : Nat) (rest : List Nat) : s.keepsPlaces (s.moveToHold k rest) :=
  ⟨List.length_modify .., congrArg (s.req.credits + ·) (countP_modify_isSome ..)⟩

theorem testHead_keepsPlaces (n : Nat) (s : State) : s.keepsPlaces (testHead n s) := by
  induction n generalizing s with
  | zero => exact .refl s
  | succ n ih =>
    unfold testHead
    split
    · split
      · exact (State.moveToHold_keepsPlaces ..).trans (ih _)
      · exact .refl s
    · exact .refl s

theorem State.headTested_keepsPlaces (s : State) : s.keepsPlaces s.headTested := testHead_keepsPlaces _ s

theorem State.testIfNewHead_keepsPlaces (before : Option Nat) : s.keepsPlaces (s.testIfNewHead before) := by
  unfold State.testIfNewHead
  split
  · exact .refl s
  · exact s.headTested_keepsPlaces

theorem State.returnHeld_keepsPlaces : s.keepsPlaces s.returnHeld := by
  have modified : ∀ (hold : List Nat) (t : List (Option Slot)) (f : Slot → Slot),
      (hold.foldl (fun t k => t.modify k (Option.map f)) t).length = t.length ∧
        (hold.foldl (fun t k => t.modify k (Option.map f)) t).countP Option.isSome = t.countP Option.isSome := by
    intro hold t f
    induction hold generalizing t with
    | nil => exact ⟨rfl, rfl⟩
    | cons k hold ih =>
      obtain ⟨length, counted⟩ := ih (t.modify k (Option.map f))
      exact ⟨length.trans (List.length_modify ..), counted.trans (countP_modify_isSome ..)⟩
  obtain ⟨length, counted⟩ := modified s.req.hold s.req.slots fun x => { x with state := .queued }
  exact ⟨length, congrArg (s.req.credits + ·) counted⟩

theorem State.releaseLock_keepsPlaces (lock : Option Lock) : s.keepsPlaces (s.releaseLock lock) := by
  unfold State.releaseLock
  split
  · exact State.returnHeld_keepsPlaces
  · exact .refl s

/-- A slot accepted takes the place of a credit (R25, R28). -/
theorem State.accept_keepsPlaces {k : Nat} (x : Slot) (credit : s.req.credits ≠ 0) (free : s.req.freeSlot = some k) :
    s.keepsPlaces (s.accept k x) := by
  obtain ⟨inside, isNone, -⟩ := List.findIdx?_eq_some_iff_getElem.mp free
  have counted := countP_set_isSome inside (some x)
  have read : s.req.slots.getD k none = none := by
    simpa [List.getD_eq_getElem?_getD, inside] using isNone
  rw [read] at counted
  refine State.keepsPlaces.trans
    (u := { s with
      req :=
        { credits := s.req.credits - 1, slots := s.req.slots.set k (some x), relay := s.req.relay ++ [k],
          hold := s.req.hold } }) ⟨List.length_set, ?_⟩ (State.testIfNewHead_keepsPlaces _)
  change s.req.credits - 1 + (s.req.slots.set k (some x)).countP Option.isSome =
    s.req.credits + s.req.slots.countP Option.isSome
  simp only [Option.isSome_some, Option.isSome_none, if_true, Bool.false_eq_true, if_false] at counted
  omega

theorem State.issue_keepsPlaces {k : Nat} {x : Slot} (slot : s.slot? k = some x) : s.keepsPlaces (s.issue k x) := by
  have single : ∀ p, s.keepsPlaces (s.issueSingle k x p) := fun p => by
    unfold State.issueSingle
    split
    · exact keepsPlaces_set slot rfl rfl
    · exact .refl s
  have dual : ∀ p q, s.keepsPlaces (s.issueDual k x p q) := fun p q => by
    unfold State.issueDual
    split
    · dsimp only
      split
      · exact keepsPlaces_set slot rfl rfl
      · exact .refl s
    · exact .refl s
  unfold State.issue
  split
  · exact single _
  · exact single _
  · exact single _
  · exact dual _ _
  · exact .refl s

theorem State.grant_keepsPlaces (w : Winner) : s.keepsPlaces (s.grant w) := by
  cases w with
  | relay =>
    unfold State.grant State.grantRelay
    dsimp only
    split
    · split
      next x slot =>
        refine ((State.issue_keepsPlaces slot).then_eq ?_).trans (State.headTested_keepsPlaces _)
        rfl
      · exact .refl s
    · exact .refl s
  | copy =>
    unfold State.grant State.grantCopy
    dsimp only
    split
    · exact .of_eq rfl
    · exact .of_eq rfl
    · exact .refl s
  | patrol =>
    unfold State.grant State.grantPatrol
    dsimp only
    split
    · exact .of_eq rfl
    · exact .refl s

theorem State.takeGrant_keepsPlaces : s.keepsPlaces s.takeGrant := by
  unfold State.takeGrant
  split
  · exact .refl s
  · split
    · split
      · exact s.headTested_keepsPlaces
      · exact s.headTested_keepsPlaces.trans (State.grant_keepsPlaces _)
    · exact State.grant_keepsPlaces .relay
  · exact State.grant_keepsPlaces _

/-- A response for a slot leaves it in use, or frees it with its credit (R26, R37). -/
theorem requestResponse_keepsPlaces (k : Nat) (t : Tag) (e : OutEntry) (a : Answer) :
    s.keepsPlaces (requestResponse k t e a s) := by
  unfold requestResponse
  split
  · exact .refl s
  next x slot =>
    dsimp only
    have reported : (s.reportIfSecondFailed x e t a).slot? k = some x := by
      rw [State.slot?, State.reportIfSecondFailed_req]
      exact slot
    split
    · exact keepsPlaces_set (y := x.answer t a) slot (by simp) (by simp)
    · have before : s.keepsPlaces (s.reportIfSecondFailed x e t a) := .of_eq (by simp)
      split
      · exact (before.trans (State.freeSlotCredit_keepsPlaces reported)).then_eq rfl
      · refine (before.then_eq ?_).trans (State.freeSlotCredit_keepsPlaces (x := x) reported)
        rfl

theorem State.tryCommit_keepsPlaces : s.keepsPlaces s.tryCommit := by
  unfold State.tryCommit
  split
  · split
    · exact .refl s
    · exact .of_eq (by simp)
  · exact .refl s

theorem State.writeRemoved_keepsPlaces (e : OutEntry) : s.keepsPlaces (s.writeRemoved e) := by
  unfold State.writeRemoved
  split
  · split
    · split
      · exact .of_eq (by simp)
      · exact .refl s
    · split
      · exact State.tryCommit_keepsPlaces
      · exact .refl s
    · exact .refl s
  · exact .refl s

theorem State.failTarget_keepsPlaces (m : Move) (lock : Option Lock) (cause : TargetCause) (firing : Option Nat) :
    s.keepsPlaces (s.failTarget m lock cause firing) := by
  refine (State.releaseLock_keepsPlaces lock).then_eq ?_
  rw [State.failTarget, State.toIdle_req, State.retryDecision_req]
  rfl

theorem State.stopMove_keepsPlaces (m : Move) (lock : Option Lock) (record : RecordBody) :
    s.keepsPlaces (s.stopMove m lock record) :=
  (State.releaseLock_keepsPlaces lock).then_eq rfl

theorem copyResponse_keepsPlaces (t : Tag) (a : Answer) : s.keepsPlaces (copyResponse t a s) := by
  unfold copyResponse
  split
  · split
    · exact .of_eq (by simp)
    · exact .refl s
  · split
    · split
      · exact State.failTarget_keepsPlaces ..
      · unfold State.copyWritten
        split
        · exact State.returnHeld_keepsPlaces (s := s.setMig _)
        · exact (State.returnHeld_keepsPlaces (s := s.setMig _)).trans State.tryCommit_keepsPlaces
    · exact .refl s
  · exact .refl s

theorem State.route_keepsPlaces (t : Tag) (e : OutEntry) (a : Answer) : s.keepsPlaces (s.route t e a) := by
  unfold State.route
  split
  · exact requestResponse_keepsPlaces ..
  · exact copyResponse_keepsPlaces ..
  · exact .of_eq (by simp)

theorem State.takeFailure_keepsPlaces (r : FailureReport) : s.keepsPlaces (s.takeFailure r) := by
  unfold State.takeFailure
  split
  · split
    · exact State.failTarget_keepsPlaces ..
    · exact .refl s
  · exact .refl s

/-- A slot that times out before issue leaves its queue and is freed with its credit (R43). -/
theorem State.timeout_keepsPlaces {k : Nat} {x : Slot} (slot : s.slot? k = some x) (t : Nat) (m : UpMessage) (p : Producer)
    (b : RecordBody) :
    s.keepsPlaces (((((s.advanceTo t).sendUp m).leaveQueues k).freeSlotCredit k).hand p b) := by
  have left : s.keepsPlaces (((s.advanceTo t).sendUp m).leaveQueues k) := ⟨rfl, rfl⟩
  exact (left.trans (State.freeSlotCredit_keepsPlaces (x := x) slot)).then_eq rfl

end Operations

/-! ### The law (R25, R46, R48) -/

/-- The upstream link is open: the part is READY with PRST_N high (R46). -/
def State.isOpen (s : State) : Bool := s.pwrOk && s.isReady && s.prstN

theorem creditLaw_iff {s : State} :
    CreditLaw s ↔ s.req.slots.length = 64 ∧ s.req.places = if s.isOpen then 64 else 0 := by
  have opened : (s.pwrOk = true ∧ s.isReady = true ∧ s.prstN = true) ↔ s.isOpen = true := by
    simp [State.isOpen, and_assoc]
  rw [CreditLaw, RequestUnit.places]
  simp only [opened]
  split
  · exact Iff.rfl
  · rw [Nat.add_eq_zero_iff]

/-- 64 credits are granted with no slot in use (R46). -/
theorem places_grantCredits {s : State} (h : s.req.places = 0) : s.grantCredits.req.places = 64 := by
  have unused : s.req.inUse = 0 := Nat.eq_zero_of_add_eq_zero_left h
  change 64 + s.req.inUse = 64
  rw [unused]

theorem RequestUnit.emptied_places (r : RequestUnit) : r.emptied.places = 0 := by
  simp [RequestUnit.places, RequestUnit.inUse, RequestUnit.emptied, List.countP_replicate]

/-- The migration unit's part of a fall of PRST_N finds the request unit empty and leaves it so (R47, R93). -/
theorem State.migrationReset_req_of_emptied {s : State} {r : RequestUnit} (h : s.req = r.emptied) :
    s.migrationReset.req = r.emptied := by
  unfold State.migrationReset
  split
  · exact h
  next m p lock _ =>
    have : (s.releaseLock lock).req = r.emptied := by
      unfold State.releaseLock
      split
      · rw [State.returnHeld, h]; rfl
      · exact h
    exact this
  · rw [State.commitMove_req, h]

/-- The events that reach the sum of credits and slots in use: those that open and close the upstream link. -/
theorem State.Event.keepsPlaces {s u : State} (h : s.Event u) :
    (s.keepsPlaces u ∧ u.isOpen = s.isOpen) ∨
      (s.isOpen = false ∧ (u.fuse.part = .ready ∧ u.prstN = true) ∧ ∃ v : State, v.req = s.req ∧ u.req = v.grantCredits.req) ∨
      (u.isOpen = false ∧ u.req = s.req.emptied) ∨ (s.isOpen = false ∧ u.isOpen = false ∧ u.req = s.req) := by
  have closed : ∀ {u : State}, u.pwrOk = s.pwrOk → u.prstN = s.prstN → u.fuse.part = s.fuse.part → u.isOpen = s.isOpen :=
    fun hp hn hf => by rw [State.isOpen, State.isOpen, State.isReady, State.isReady, hp, hn, hf]
  cases h with
  | ready loading _ _ low =>
    refine .inr (.inr (.inr ⟨?_, ?_, rfl⟩))
    · rw [State.isOpen, low, Bool.and_false]
    · rw [State.isOpen, low, Bool.and_false]
  | readyReleased loading _ _ high =>
    refine .inr (.inl ⟨?_, ⟨rfl, high⟩, s, rfl, rfl⟩)
    rw [State.isOpen, loading, Bool.and_false, Bool.false_and]
  | fall =>
    exact .inr (.inr (.inl ⟨by simp [State.isOpen], State.migrationReset_req_of_emptied rfl⟩))
  | rise low loading =>
    refine .inr (.inr (.inr ⟨?_, ?_, rfl⟩))
    · rw [State.isOpen, low, Bool.and_false]
    · rw [State.isOpen, show State.isReady { s with prstN := true } = false from loading, Bool.and_false, Bool.false_and]
  | riseReleased low isReady =>
    refine .inr (.inl ⟨?_, ⟨beq_iff_eq.mp isReady, rfl⟩, s, rfl, rfl⟩)
    rw [State.isOpen, low, Bool.and_false]
  | accepted k kind tag size addr beats deadline credit free =>
    exact .inl ⟨State.accept_keepsPlaces _ credit free, closed (by simp) (by simp) (by simp)⟩
  | grant => exact .inl ⟨State.takeGrant_keepsPlaces, closed (by simp) (by simp) (by simp)⟩
  | response tag e a first =>
    have removed : s.keepsPlaces ((s.removeTag tag).reportStatuses e a first) := .of_eq (by simp)
    exact .inl ⟨(removed.trans (State.route_keepsPlaces ..)).trans (State.writeRemoved_keepsPlaces e),
      closed (by simp) (by simp) (by simp)⟩
  | failure k r =>
    exact .inl ⟨State.takeFailure_keepsPlaces (s := s.setMig _) r, closed (by simp) (by simp) (by simp)⟩
  | committed => exact .inl ⟨State.tryCommit_keepsPlaces, closed (by simp) (by simp) (by simp)⟩
  | copyReadTimeout m p c =>
    exact .inl ⟨(State.stopMove_keepsPlaces (s := s.advanceTo c.deadline) m (some (.reading (some c)))
      (.migFailed m.req.l .timeout)).then_eq rfl, closed (by simp) (by simp) (by simp)⟩
  | copyWriteTimeout m p b c =>
    exact .inl ⟨State.failTarget_keepsPlaces (s := s.advanceTo c.deadline) .., closed (by simp) (by simp) (by simp)⟩
  | orphaned k x slot => exact .inl ⟨keepsPlaces_set slot rfl rfl, rfl⟩
  | queuedTimeout k x slot =>
    exact .inl ⟨(State.timeout_keepsPlaces slot ..).trans (State.testIfNewHead_keepsPlaces _),
      closed (by simp) (by simp) (by simp)⟩
  | heldTimeout k x slot => exact .inl ⟨State.timeout_keepsPlaces slot ..,
    closed (by simp) (by simp) (by simp)⟩
  | heldTimeoutUnstalls k x slot =>
    exact .inl ⟨(State.timeout_keepsPlaces slot ..).trans (State.headTested_keepsPlaces _),
      closed (by simp) (by simp) (by simp)⟩
  | _ => exact .inl ⟨.of_eq (by simp), closed (by simp) (by simp) (by simp [State.passMilliseconds_fuse, State.endVerify])⟩

/-- No command changes the sum of credits and slots in use. -/
theorem State.Commanded.keepsPlaces {s u : State} (h : s.Commanded u) : s.keepsPlaces u := by
  cases h with
  | paramSet p v => cases p <;> exact .of_eq rfl
  | aborted m p lock => exact (State.stopMove_keepsPlaces m lock (.migAborted m.req.l .manual)).then_eq rfl
  | _ => exact .of_eq (by simp [State.acceptCommit])

theorem creditLaw_kept : KeptByParts CreditLaw where
  pending := fun _ _ h => h
  port := fun _ _ _ h => h
  powerOn := fun _ _ _ _ _ => creditLaw_iff.mpr ⟨rfl, rfl⟩
  powerLoss := fun _ _ _ => creditLaw_iff.mpr ⟨rfl, rfl⟩
  event := fun s u hp h hu => by
    rw [creditLaw_iff] at h ⊢
    obtain ⟨length, places⟩ := h
    obtain ⟨⟨length', places'⟩, still⟩ | ⟨shut, ⟨ready, high⟩, v, hv, eq⟩ | ⟨shut, eq⟩ | ⟨shut, shut', eq⟩ := hu.keepsPlaces
    · exact ⟨length'.trans length, by rw [places', places, still]⟩
    · have isOpen : u.isOpen = true := by rw [State.isOpen, State.isReady, hu.pwrOk, hp, ready, high]; rfl
      rw [shut] at places
      rw [eq, isOpen]
      exact ⟨(congrArg (·.slots.length) hv).trans length, places_grantCredits (hv ▸ places)⟩
    · rw [eq, shut]
      exact ⟨by rw [RequestUnit.emptied, List.length_replicate, length], s.req.emptied_places⟩
    · rw [eq, shut', length, places, shut]
      exact ⟨rfl, rfl⟩
  command := fun s u h hu => by
    rw [creditLaw_iff] at h ⊢
    obtain ⟨length, places⟩ := hu.keepsPlaces
    refine ⟨length.trans h.1, ?_⟩
    rw [places, h.2, State.isOpen, State.isOpen, State.isReady, State.isReady, hu.pwrOk, hu.prstN, hu.part]

end Sys2Proof.Machine
end

section
/-! The tracker under every step (R24, R30, R32, R52): relay queue, hold buffer and outstanding downstream table agree with the states
of the slots. -/

namespace Sys2Proof.Machine

/-! ### What a slot waits for (R24, R37) -/

/-- h is one of the halves of the slot. -/
def Slot.hasHalf (x : Slot) (h : Half) : Prop := x.first = some h ∨ x.second = some h

/-- The slot, ACTIVE or ORPHAN, waits for the answer under tag t. -/
def Slot.waits (x : Slot) (t : Tag) : Prop :=
  (x.state = .active ∨ x.state = .orphan) ∧ ∃ h, x.hasHalf h ∧ h.answer = none ∧ h.tag = t

theorem Half.outstanding_iff {h : Half} : h.outstanding = true ↔ h.answer = none := Option.isNone_iff_eq_none

theorem Slot.anyOutstanding_iff {x : Slot} : x.anyOutstanding = true ↔ ∃ h, x.hasHalf h ∧ h.answer = none := by
  unfold Slot.anyOutstanding Slot.hasHalf
  cases x.first <;> cases x.second <;> simp [Half.outstanding_iff, or_and_right, exists_or]

theorem Slot.waits.anyOutstanding {x : Slot} {t : Tag} (h : x.waits t) : x.anyOutstanding = true := by
  obtain ⟨-, hf, half, out, -⟩ := h
  exact Slot.anyOutstanding_iff.mpr ⟨hf, half, out⟩

theorem Slot.answersSecond_iff {x : Slot} {t : Tag} :
    x.answersSecond t = true ↔ ∃ h, x.second = some h ∧ h.answer = none ∧ h.tag = t := by
  unfold Slot.answersSecond
  cases x.second <;> simp [Half.outstanding_iff]

theorem State.halfOf_iff {s : State} {k : Nat} {t : Tag} :
    s.halfOf k t = true ↔ ∃ x, s.slot? k = some x ∧ x.waits t := by
  unfold State.halfOf
  cases s.slot? k with
  | none => simp
  | some x =>
    simp only [Bool.and_eq_true, Bool.or_eq_true, beq_iff_eq, Option.some.injEq, exists_eq_left', Slot.waits, Slot.hasHalf]
    refine and_congr_right fun _ => ?_
    cases x.first <;> cases x.second <;> simp [Half.outstanding_iff, or_and_right, exists_or]

@[simp] theorem Slot.answer_state (x : Slot) (t : Tag) (a : Answer) : (x.answer t a).state = x.state := by
  unfold Slot.answer; split <;> rfl

@[simp] theorem Slot.answer_answered (x : Slot) (t : Tag) (a : Answer) : (x.answer t a).answered = x.answered := by
  unfold Slot.answer; split <;> rfl

/-- An answer under one tag leaves the half that waits under another (R37). -/
theorem Slot.waits.answer {x : Slot} {t t' : Tag} (h : x.waits t') (other : t' ≠ t) (here : x.waits t) (a : Answer) :
    (x.answer t a).waits t' := by
  obtain ⟨state, f, half, out, tag⟩ := h
  refine ⟨by rwa [Slot.answer_state], f, ?_, out, tag⟩
  unfold Slot.answer
  split
  next second =>
    obtain ⟨g, hg, -, tagOf⟩ := Slot.answersSecond_iff.mp second
    obtain first | second := half
    · exact .inl first
    · rw [hg] at second
      cases second
      exact absurd (tag.symm.trans tagOf) other
  next notSecond =>
    obtain ⟨-, g, first | second, outOf, tagOf⟩ := here
    · obtain first' | second' := half
      · rw [first] at first'
        cases first'
        exact absurd (tag.symm.trans tagOf) other
      · exact .inr second'
    · exact absurd (Slot.answersSecond_iff.mpr ⟨g, second, outOf, tagOf⟩) notSecond

/-! ### The law of the tracker -/

/-- Slot k of a tracker is in use in a given state. -/
def RequestUnit.slotIn (r : RequestUnit) (k : Nat) (st : SlotState) : Prop := ∃ x, r.slot? k = some x ∧ x.state = st

/-- Relay queue and hold buffer hold each QUEUED and each HELD slot once; the held ones wait for the quad the context locks; each
slot has the fields of its state (R24, R30, R32). -/
structure RequestUnit.Tracks (r : RequestUnit) (c : Context) : Prop where
  length : r.slots.length = 64
  relayNodup : r.relay.Nodup
  holdNodup : r.hold.Nodup
  short : r.hold.length ≤ 4
  relay : ∀ k, k ∈ r.relay ↔ r.slotIn k .queued
  hold : ∀ k, k ∈ r.hold ↔ r.slotIn k .held
  locked : ∀ k x, r.slot? k = some x → x.state = .held → c.locks x.l x.q = true
  lawful : ∀ k x, r.slot? k = some x → x.lawful

/-- Every REQUEST entry of the outstanding table has a half of its slot that waits for it (R24, R52). -/
def RequestUnit.Owns (r : RequestUnit) (out : List (Tag × OutEntry)) : Prop :=
  ∀ y ∈ out, ∀ k, y.2.owner = .request k → ∃ x, r.slot? k = some x ∧ x.waits y.1

/-- The tracker's law of a state under a migration context. -/
structure State.Tracked (s : State) (c : Context) : Prop where
  slots : s.req.Tracks c
  owners : s.req.Owns s.arb.outstanding
  tags : (s.arb.outstanding.map Prod.fst).Nodup

theorem RequestUnit.slot?_lt {r : RequestUnit} {k : Nat} {x : Slot} (h : r.slot? k = some x) : k < r.slots.length :=
  lt_of_getD h

theorem trackerLaw_iff {s : State} : TrackerLaw s ↔ s.Tracked s.mig.context := by
  have slotIn : ∀ k st, s.slotIn k st = true ↔ s.req.slotIn k st := fun k st => by
    rw [State.slotIn, RequestUnit.slotIn, beq_iff_eq, Option.map_eq_some_iff]
    rfl
  have below : ∀ {k st}, s.req.slots.length = 64 → s.req.slotIn k st → k < 64 := fun length ⟨_, hx, _⟩ =>
    length ▸ RequestUnit.slot?_lt hx
  have lawful : (∀ x ∈ s.req.slots, ∀ y ∈ x, y.lawful) ↔ ∀ k x, s.req.slot? k = some x → x.lawful := by
    constructor
    · intro all k x hx
      exact all _ (List.mem_of_getElem? (RequestUnit.slot?_eq_some.mp hx)) x rfl
    · intro all o ho x hx
      obtain ⟨k, hk⟩ := List.mem_iff_getElem?.mp ho
      rw [Option.mem_def] at hx
      exact all k x (RequestUnit.slot?_eq_some.mpr (hx ▸ hk))
  have owners : (∀ x ∈ s.arb.outstanding, s.ownerWaits x = true) ↔ s.req.Owns s.arb.outstanding := by
    refine forall₂_congr fun y _ => ?_
    unfold State.ownerWaits
    cases y.2.owner with
    | request k => simp [State.halfOf_iff, State.slot?_eq]
    | copy | patrol => simp
  rw [TrackerLaw, lawful, owners]
  simp only [slotIn]
  constructor
  · rintro ⟨length, relayNodup, holdNodup, short, inRelay, inHold, relayed, held, locked, lawful, owners, tags⟩
    exact ⟨⟨length, relayNodup, holdNodup, short, fun k => ⟨inRelay k, fun h => relayed k (below length h) h⟩,
      fun k => ⟨inHold k, fun h => held k (below length h) h⟩,
      fun k x hx hst => locked k (held k (below length ⟨x, hx, hst⟩) ⟨x, hx, hst⟩) x hx, lawful⟩, owners, tags⟩
  · rintro ⟨h, owners, tags⟩
    refine ⟨h.length, h.relayNodup, h.holdNodup, h.short, fun k => (h.relay k).mp, fun k => (h.hold k).mp,
      fun k _ => (h.relay k).mpr, fun k _ => (h.hold k).mpr, fun k hk x hx => ?_, h.lawful, owners, tags⟩
    obtain ⟨y, hy, held⟩ := (h.hold k).mp hk
    rw [Option.mem_def, State.slot?_eq, hy] at hx
    cases hx
    exact h.locked k _ hy held

/-! ### Changes of one slot -/

/-- The slot read after a write within the tracker. -/
theorem RequestUnit.slot?_set {r : RequestUnit} {k : Nat} (inside : k < r.slots.length) (y : Option Slot) (j credits : Nat)
    (relay hold : List Nat) :
    RequestUnit.slot? { credits := credits, slots := r.slots.set k y, relay := relay, hold := hold } j =
      if j = k then y else r.slot? j := by
  unfold RequestUnit.slot?
  rw [getD_set]
  by_cases same : j = k
  · subst same
    rw [if_pos ⟨rfl, inside⟩, if_pos rfl]
  · rw [if_neg fun h => same h.1.symm, if_neg same]

/-- A slot written keeps the law, if the queues then hold it exactly in the state it is in, and the others as before. -/
theorem RequestUnit.Tracks.put {r : RequestUnit} {c : Context} (h : r.Tracks c) {k : Nat} (inside : k < 64)
    {y : Option Slot} (credits : Nat) {relay hold : List Nat} (relayNodup : relay.Nodup) (holdNodup : hold.Nodup)
    (short : hold.length ≤ 4)
    (inRelay : ∀ j, j ∈ relay ↔ if j = k then y.map Slot.state = some .queued else j ∈ r.relay)
    (inHold : ∀ j, j ∈ hold ↔ if j = k then y.map Slot.state = some .held else j ∈ r.hold)
    (locked : ∀ x, y = some x → x.state = .held → c.locks x.l x.q = true) (lawful : ∀ x, y = some x → x.lawful) :
    RequestUnit.Tracks { credits := credits, slots := r.slots.set k y, relay := relay, hold := hold } c := by
  have read : ∀ j, RequestUnit.slot? { credits := credits, slots := r.slots.set k y, relay := relay, hold := hold } j =
      if j = k then y else r.slot? j := fun j => RequestUnit.slot?_set (h.length ▸ inside) ..
  refine ⟨by rw [List.length_set, h.length], relayNodup, holdNodup, short, fun j => ?_, fun j => ?_, fun j x hx held => ?_,
    fun j x hx => ?_⟩
  · rw [inRelay, RequestUnit.slotIn, read]
    split
    · rw [Option.map_eq_some_iff]
    · exact h.relay j
  · rw [inHold, RequestUnit.slotIn, read]
    split
    · rw [Option.map_eq_some_iff]
    · exact h.hold j
  · rw [read] at hx
    split at hx
    · exact locked x hx held
    · exact h.locked j x hx held
  · rw [read] at hx
    split at hx
    · exact lawful x hx
    · exact h.lawful j x hx

/-- A slot written keeps the ownership, if it waits for every entry of the table that the slot before waited for. -/
theorem RequestUnit.Owns.put {r : RequestUnit} {out : List (Tag × OutEntry)} (h : r.Owns out) {k : Nat}
    (inside : k < r.slots.length) {y : Option Slot} (credits : Nat) {relay hold : List Nat}
    (still : ∀ x, r.slot? k = some x → ∀ z ∈ out, x.waits z.1 → ∃ x', y = some x' ∧ x'.waits z.1) :
    RequestUnit.Owns { credits := credits, slots := r.slots.set k y, relay := relay, hold := hold } out := by
  intro z hz j owner
  obtain ⟨x, hx, waits⟩ := h z hz j owner
  rw [RequestUnit.slot?_set inside]
  split
  next same =>
    subst same
    exact still x hx z hz waits
  · exact ⟨x, hx, waits⟩

/-- A slot that is not issued waits for no entry. -/
theorem Slot.not_waits {x : Slot} (h : x.state = .queued ∨ x.state = .held) (t : Tag) : ¬x.waits t := by
  rintro ⟨active | orphan, -⟩
  · rw [active] at h; obtain h | h := h <;> cases h
  · rw [orphan] at h; obtain h | h := h <;> cases h

theorem modify_eq_set {t : List (Option Slot)} {k : Nat} {x : Slot} (h : t.getD k none = some x) (f : Slot → Slot) :
    t.modify k (Option.map f) = t.set k (some (f x)) := by
  have inside := lt_of_getD h
  have read : t[k] = some x := by
    rw [List.getD_eq_getElem?_getD, List.getElem?_eq_getElem inside] at h
    exact h
  rw [List.modify_eq_set_getElem? ]
  simp [inside, read]

/-! ### The return of the held slots (R33) -/

/-- The request unit after the return of the held slots. -/
def RequestUnit.heldBack (r : RequestUnit) : RequestUnit :=
  { r with
    slots := r.hold.foldl (fun t k => t.modify k (Option.map fun x => { x with state := .queued })) r.slots,
    relay := r.hold ++ r.relay, hold := [] }

theorem RequestUnit.slot?_heldBack (r : RequestUnit) (k : Nat) :
    r.heldBack.slot? k = if k ∈ r.hold then (r.slot? k).map fun x => { x with state := .queued } else r.slot? k := by
  simp only [RequestUnit.slot?, RequestUnit.heldBack, List.getD_eq_getElem?_getD, getElem?_foldl_queued]
  split
  · cases r.slots[k]? <;> rfl
  · rfl

/-- With the hold buffer returned the law stands under any context. -/
theorem RequestUnit.Tracks.heldBack {r : RequestUnit} {c : Context} (h : r.Tracks c) (c' : Context) :
    r.heldBack.Tracks c' := by
  have apart : ∀ k ∈ r.hold, k ∉ r.relay := fun k hk hr => by
    obtain ⟨x, hx, held⟩ := (h.hold k).mp hk
    obtain ⟨y, hy, queued⟩ := (h.relay k).mp hr
    rw [hx] at hy
    cases hy
    rw [held] at queued
    cases queued
  have length : r.heldBack.slots.length = 64 := by
    rw [← h.length]
    have : ∀ (hold : List Nat) (t : List (Option Slot)),
        (hold.foldl (fun t k => t.modify k (Option.map fun x : Slot => { x with state := .queued })) t).length = t.length := by
      intro hold t
      induction hold generalizing t with
      | nil => rfl
      | cons k hold ih => rw [List.foldl_cons, ih, List.length_modify]
    exact this ..
  have notHeld : ∀ k x, r.heldBack.slot? k = some x → x.state ≠ .held := fun k x hx held => by
    rw [RequestUnit.slot?_heldBack] at hx
    split at hx
    · obtain ⟨y, -, rfl⟩ := Option.map_eq_some_iff.mp hx
      cases held
    next out => exact out ((h.hold k).mpr ⟨x, hx, held⟩)
  refine ⟨length, List.Nodup.append h.holdNodup h.relayNodup apart, List.nodup_nil, Nat.zero_le _, fun k => ?_, fun k => ?_,
    fun k x hx held => absurd held (notHeld k x hx), fun k x hx => ?_⟩
  · change k ∈ r.hold ++ r.relay ↔ _
    rw [List.mem_append, RequestUnit.slotIn, RequestUnit.slot?_heldBack]
    split
    next hk =>
      obtain ⟨y, hy, -⟩ := (h.hold k).mp hk
      rw [hy]
      exact ⟨fun _ => ⟨_, rfl, rfl⟩, fun _ => .inl hk⟩
    next hk =>
      rw [h.relay k]
      exact ⟨fun h => h.resolve_left hk, .inr⟩
  · change k ∈ [] ↔ _
    exact ⟨nofun, fun ⟨x, hx, held⟩ => absurd held (notHeld k x hx)⟩
  · rw [RequestUnit.slot?_heldBack] at hx
    split at hx
    next hk =>
      obtain ⟨y, hy, rfl⟩ := Option.map_eq_some_iff.mp hx
      obtain ⟨z, hz, held⟩ := (h.hold k).mp hk
      rw [hy] at hz
      cases hz
      have := h.lawful k y hy
      rw [Slot.lawful, held] at this
      exact this
    · exact h.lawful k x hx

theorem RequestUnit.Owns.heldBack {r : RequestUnit} {c : Context} {out : List (Tag × OutEntry)} (h : r.Owns out)
    (law : r.Tracks c) : r.heldBack.Owns out := by
  intro z hz k owner
  obtain ⟨x, hx, waits⟩ := h z hz k owner
  rw [RequestUnit.slot?_heldBack, if_neg]
  · exact ⟨x, hx, waits⟩
  · intro hk
    obtain ⟨y, hy, held⟩ := (law.hold k).mp hk
    rw [hx] at hy
    cases hy
    exact Slot.not_waits (.inr held) _ waits

/-! ### The operations -/

namespace State.Tracked

variable {s u : State} {c : Context} (h : s.Tracked c)

include h

/-- A change of neither request unit nor outstanding table. -/
theorem congr (req : u.req = s.req) (out : u.arb.outstanding = s.arb.outstanding) : u.Tracked c :=
  ⟨req ▸ h.slots, by rw [req, out]; exact h.owners, out ▸ h.tags⟩

/-- A context that locks what the one before locks. -/
theorem changeContext {c' : Context} (locks : ∀ l q, c.locks l q = true → c'.locks l q = true) : s.Tracked c' :=
  ⟨{ h.slots with locked := fun k x hx held => locks _ _ (h.slots.locked k x hx held) }, h.owners, h.tags⟩

theorem returnHeld (c' : Context) : s.returnHeld.Tracked c' :=
  ⟨h.slots.heldBack c', h.owners.heldBack h.slots, h.tags⟩

/-- With the lock released no quad is locked (R33, R81). -/
theorem releaseLock {m : Move} {p : Nat} {lock : Option Lock} (hc : c = .copying m p lock) (c' : Context) :
    (s.releaseLock lock).Tracked c' := by
  subst hc
  cases lock with
  | none => exact h.changeContext nofun
  | some lock => exact h.returnHeld c'

/-- An entry removed from the table. -/
theorem removeTag (t : Tag) : (s.removeTag t).Tracked c :=
  ⟨h.slots, fun y hy => h.owners y (List.mem_of_mem_filter hy), h.tags.sublist (List.filter_sublist.map _)⟩

/-- A slot written, queues and table as the law of the slot's state asks. -/
theorem setReq {k : Nat} (inside : k < 64) {y : Option Slot} (credits : Nat) {relay hold : List Nat}
    (req : u.req = { credits := credits, slots := s.req.slots.set k y, relay := relay, hold := hold })
    (out : u.arb.outstanding = s.arb.outstanding)
    (queues : RequestUnit.Tracks { credits := credits, slots := s.req.slots.set k y, relay := relay, hold := hold } c)
    (still : ∀ x, s.req.slot? k = some x → ∀ z ∈ s.arb.outstanding, x.waits z.1 → ∃ x', y = some x' ∧ x'.waits z.1) :
    u.Tracked c := by
  refine ⟨req ▸ queues, ?_, out ▸ h.tags⟩
  rw [req, out]
  exact h.owners.put (by rw [h.slots.length]; exact inside) credits still

/-- A slot not issued that leaves its queue and is freed (R43). -/
theorem freed {k : Nat} {x : Slot} (slot : s.slot? k = some x) (waiting : x.state = .queued ∨ x.state = .held)
    (credits : Nat)
    (req : u.req =
      { credits := credits, slots := s.req.slots.set k none, relay := s.req.relay.filter (· != k),
        hold := s.req.hold.filter (· != k) }) (out : u.arb.outstanding = s.arb.outstanding) : u.Tracked c := by
  have inside : k < 64 := h.slots.length ▸ RequestUnit.slot?_lt slot
  have left : ∀ (q : List Nat) (j : Nat), j ∈ q.filter (· != k) ↔ if j = k then False else j ∈ q := fun q j => by
    rw [List.mem_filter, bne_iff_ne]
    split
    next same => simp [same]
    next other => simp [other]
  refine h.setReq inside credits req out ?_ fun x' hx' z _ waits => ?_
  · refine h.slots.put inside credits (h.slots.relayNodup.filter _) (h.slots.holdNodup.filter _)
      ((List.length_filter_le ..).trans h.slots.short) (fun j => ?_) (fun j => ?_)
      (fun _ none => by cases none) fun _ none => by cases none
    · simp [left]
    · simp [left]
  · rw [State.slot?_eq] at slot
    rw [slot] at hx'
    cases hx'
    exact absurd waits (Slot.not_waits waiting _)

/-- An issued slot written that stays issued or is freed; the queues do not hold it. -/
theorem setIssued {k : Nat} {x : Slot} (slot : s.slot? k = some x) (issued : x.state = .active ∨ x.state = .orphan)
    {y : Option Slot} (still : ∀ x', y = some x' → x'.state = .active ∨ x'.state = .orphan) (credits : Nat)
    (req : u.req = { credits := credits, slots := s.req.slots.set k y, relay := s.req.relay, hold := s.req.hold })
    (out : u.arb.outstanding = s.arb.outstanding) (lawful : ∀ x', y = some x' → x'.lawful)
    (waiting : ∀ z ∈ s.arb.outstanding, x.waits z.1 → ∃ x', y = some x' ∧ x'.waits z.1) : u.Tracked c := by
  rw [State.slot?_eq] at slot
  have inside : k < 64 := h.slots.length ▸ RequestUnit.slot?_lt slot
  have neither : ∀ st, st = .queued ∨ st = .held → (y.map Slot.state = some st ↔ s.req.slotIn k st) := fun st hst => by
    constructor
    · intro hy
      obtain ⟨x', hy', state⟩ := Option.map_eq_some_iff.mp hy
      have := still x' hy'
      rw [state] at this
      obtain rfl | rfl := hst <;> simp at this
    · rintro ⟨x', hx', state⟩
      rw [slot] at hx'
      cases hx'
      rw [state] at issued
      obtain rfl | rfl := hst <;> simp at issued
  refine h.setReq inside credits req out ?_ fun x' hx' z hz waits => ?_
  · refine h.slots.put inside credits h.slots.relayNodup h.slots.holdNodup h.slots.short (fun j => ?_) (fun j => ?_)
      (fun x' hy held => ?_) lawful
    · split
      next same => rw [same, h.slots.relay, neither _ (.inl rfl)]
      · exact Iff.rfl
    · split
      next same => rw [same, h.slots.hold, neither _ (.inr rfl)]
      · exact Iff.rfl
    · have := still x' hy
      rw [held] at this
      simp at this
  · rw [slot] at hx'
    cases hx'
    exact waiting z hz waits

end State.Tracked

end Sys2Proof.Machine
end

section
/-! The law of the tracker kept by each operation of request unit, arbiter and migration unit, and so by every step (R24, R30 to R33,
R35 to R37, R43, R44, R47). -/

namespace Sys2Proof.Machine

section Operations

variable {s u : State}

/-! ### The hold test and arrivals (R28, R31) -/

theorem Slot.lawful_queued {x : Slot} (h : x.lawful) (waiting : x.state = .queued ∨ x.state = .held) :
    x.first = none ∧ x.second = none ∧ x.merged = none ∧ x.answered = false := by
  obtain e | e := waiting <;> rwa [Slot.lawful, e] at h

/-- The head of the relay queue is a QUEUED slot. -/
theorem State.Tracked.head {c : Context} (h : s.Tracked c) {k : Nat} {rest : List Nat} (relay : s.req.relay = k :: rest) :
    ∃ x, s.slot? k = some x ∧ x.state = .queued :=
  (h.slots.relay k).mp (by rw [relay]; exact List.mem_cons_self)

/-- A QUEUED slot is in no hold buffer. -/
theorem State.Tracked.not_hold {c : Context} (h : s.Tracked c) {k : Nat} {x : Slot} (slot : s.slot? k = some x)
    (queued : x.state = .queued) : k ∉ s.req.hold := fun hk => by
  obtain ⟨y, hy, held⟩ := (h.slots.hold k).mp hk
  rw [State.slot?_eq, hy] at slot
  cases slot
  rw [held] at queued
  cases queued

theorem State.Tracked.moveToHold (h : s.Tracked s.mig.context) {k : Nat} {rest : List Nat} (relay : s.req.relay = k :: rest)
    (held : s.held k = true) (room : s.req.holdHasRoom = true) : (s.moveToHold k rest).Tracked s.mig.context := by
  obtain ⟨x, slot, queued⟩ := h.head relay
  have inside : k < 64 := h.slots.length ▸ RequestUnit.slot?_lt slot
  have notHold := h.not_hold slot queued
  have nodup := h.slots.relayNodup
  rw [relay, List.nodup_cons] at nodup
  have lawful := Slot.lawful_queued (h.slots.lawful k x slot) (.inl queued)
  rw [RequestUnit.holdHasRoom_iff] at room
  simp only [State.held, slot, State.holdTest, Bool.and_eq_true] at held
  refine h.setReq inside (y := some { x with state := .held }) s.req.credits (relay := rest) (hold := s.req.hold ++ [k])
    (by rw [State.moveToHold, modify_eq_set slot]) rfl ?_ fun x' hx' z _ waits => ?_
  · refine h.slots.put inside s.req.credits nodup.2 (h.slots.holdNodup.append (List.nodup_singleton k)
      (List.disjoint_singleton.mpr notHold)) (by rw [List.length_append]; exact room) (fun j => ?_) (fun j => ?_)
      (fun x' hx' _ => ?_) fun x' hx' => ?_
    · rw [relay]
      split
      next same => simp [same, nodup.1]
      next other => simp [other]
    · split
      next same => simp [same]
      next other => simp [other]
    · cases hx'
      exact held.1
    · cases hx'
      exact lawful
  · rw [State.slot?_eq] at slot
    rw [slot] at hx'
    cases hx'
    exact absurd waits (Slot.not_waits (.inl queued) _)

theorem State.Tracked.testHead (n : Nat) (h : s.Tracked s.mig.context) : (testHead n s).Tracked s.mig.context := by
  induction n generalizing s with
  | zero => exact h
  | succ n ih =>
    unfold Machine.testHead
    split
    next k rest relay =>
      split
      next test =>
        rw [Bool.and_eq_true] at test
        exact ih (s := s.moveToHold k rest) (h.moveToHold relay test.1 test.2)
      · exact h
    · exact h

theorem State.Tracked.headTested (h : s.Tracked s.mig.context) : s.headTested.Tracked s.mig.context := h.testHead _

theorem State.Tracked.testIfNewHead (h : s.Tracked s.mig.context) (before : Option Nat) :
    (s.testIfNewHead before).Tracked s.mig.context := by
  unfold State.testIfNewHead
  split
  · exact h
  · exact h.headTested

theorem State.Tracked.accept (h : s.Tracked s.mig.context) {k : Nat} {x : Slot} (free : s.req.freeSlot = some k)
    (queued : x.state = .queued) (lawful : x.lawful) : (s.accept k x).Tracked s.mig.context := by
  obtain ⟨inside, isNone, -⟩ := List.findIdx?_eq_some_iff_getElem.mp free
  have unused : s.req.slot? k = none := by
    simpa [RequestUnit.slot?, List.getD_eq_getElem?_getD, inside] using isNone
  have notIn : ∀ st, ¬s.req.slotIn k st := fun st ⟨y, hy, _⟩ => by rw [unused] at hy; cases hy
  have notRelay : k ∉ s.req.relay := fun hk => notIn _ ((h.slots.relay k).mp hk)
  have notHold : k ∉ s.req.hold := fun hk => notIn _ ((h.slots.hold k).mp hk)
  rw [h.slots.length] at inside
  refine State.Tracked.testIfNewHead (s := { s with
    req :=
      { credits := s.req.credits - 1, slots := s.req.slots.set k (some x), relay := s.req.relay ++ [k],
        hold := s.req.hold } }) (h.setReq inside (y := some x) (s.req.credits - 1) rfl rfl ?_ fun x' hx' => ?_) _
  · refine h.slots.put inside _ (h.slots.relayNodup.append (List.nodup_singleton k)
      (List.disjoint_singleton.mpr notRelay)) h.slots.holdNodup h.slots.short (fun j => ?_) (fun j => ?_)
      (fun x' hx' held => ?_) fun x' hx' => ?_
    · split
      next same => simp [same, queued]
      next other => simp [other]
    · split
      next same => simp [same, queued, notHold]
      · exact Iff.rfl
    · cases hx'
      rw [queued] at held
      cases held
    · cases hx'
      exact lawful
  · rw [unused] at hx'
    cases hx'

/-! ### Grants (R35, R36) -/

/-- A request placed under a free tag: a background one, or one that its slot waits for. -/
theorem State.Tracked.placed {c : Context} (h : s.Tracked c) {t : Tag} {e : OutEntry} (free : s.arb.nextFree = some t)
    (owner : ∀ k, e.owner = .request k → ∃ x, s.slot? k = some x ∧ x.waits t) (req : u.req = s.req)
    (out : u.arb.outstanding = s.arb.outstanding ++ [(t, e)]) : u.Tracked c := by
  refine ⟨req ▸ h.slots, ?_, ?_⟩
  · rw [req, out]
    intro y hy k hk
    obtain hy | hy := List.mem_append.mp hy
    · exact h.owners y hy k hk
    · cases List.mem_singleton.mp hy
      exact owner k hk
  · rw [out]
    exact place_nodup e free h.tags

/-- The head of the relay queue becomes ACTIVE with a half outstanding. -/
theorem State.Tracked.activate {c : Context} (h : s.Tracked c) {k : Nat} {x : Slot} (slot : s.slot? k = some x)
    (queued : x.state = .queued) {first : Half} (out : first.answer = none) (second : Option Half) :
    (s.activate k x first second).Tracked c := by
  have inside : k < 64 := h.slots.length ▸ RequestUnit.slot?_lt slot
  have lawful := Slot.lawful_queued (h.slots.lawful k x slot) (.inl queued)
  refine h.setReq inside (y := some { x with state := .active, first := some first, second := second }) s.req.credits
    (relay := s.req.relay.filter (· != k)) (hold := s.req.hold) rfl rfl ?_ fun x' hx' z _ waits => ?_
  · refine h.slots.put inside _ (h.slots.relayNodup.filter _) h.slots.holdNodup h.slots.short (fun j => ?_) (fun j => ?_)
      (fun x' hx' held => ?_) fun x' hx' => ?_
    · rw [List.mem_filter, bne_iff_ne]
      split
      next same => simp [same]
      next other => simp [other]
    · split
      next same => simp [same, h.not_hold slot queued]
      · exact Iff.rfl
    · cases hx'
      cases held
    · cases hx'
      exact ⟨Slot.anyOutstanding_iff.mpr ⟨first, .inl rfl, out⟩, lawful.2.2.2⟩
  · rw [State.slot?_eq] at slot
    rw [slot] at hx'
    cases hx'
    exact absurd waits (Slot.not_waits (.inl queued) _)

/-- The slot read after it became ACTIVE. -/
theorem State.slot?_activate {k : Nat} {x : Slot} (slot : s.slot? k = some x) (first : Half) (second : Option Half) :
    (s.activate k x first second).slot? k = some { x with state := .active, first := some first, second := second } := by
  rw [State.slot?_eq]
  exact (RequestUnit.slot?_set (lt_of_getD slot) ..).trans (if_pos rfl)

theorem State.Tracked.issue {c : Context} (h : s.Tracked c) {k : Nat} {x : Slot} (slot : s.slot? k = some x)
    (queued : x.state = .queued) : (s.issue k x).Tracked c := by
  have single : ∀ p, (s.issueSingle k x p).Tracked c := fun p => by
    unfold State.issueSingle
    split
    next t free =>
      refine (h.activate slot queued (first := newHalf p t) rfl none).placed (e := x.entryTo k p) free (fun k' hk' => ?_)
        rfl rfl
      cases hk'
      exact ⟨_, s.slot?_activate slot .., .inl rfl, _, .inl rfl, rfl, rfl⟩
    · exact h
  have dual : ∀ p q, (s.issueDual k x p q).Tracked c := fun p q => by
    unfold State.issueDual
    split
    next t free =>
      dsimp only
      split
      next t2 free2 =>
        have active := h.activate slot queued (first := newHalf p t) rfl (some (newHalf q t2))
        have read := s.slot?_activate slot (newHalf p t) (some (newHalf q t2))
        have first : ((s.activate k x (newHalf p t) (some (newHalf q t2))).place t (x.entryTo k p) x.beats).Tracked c :=
          active.placed (e := x.entryTo k p) free (fun k' hk' => by
            cases hk'
            exact ⟨_, read, .inl rfl, _, .inl rfl, rfl, rfl⟩) rfl rfl
        exact first.placed (e := x.entryTo k q) free2 (fun k' hk' => by
          cases hk'
          exact ⟨_, read, .inl rfl, _, .inr rfl, rfl, rfl⟩) rfl rfl
      · exact h
    · exact h
  unfold State.issue
  split
  · exact single _
  · exact single _
  · exact single _
  · exact dual _ _
  · exact h

theorem State.Tracked.grant (h : s.Tracked s.mig.context) (w : Winner) : (s.grant w).Tracked (s.grant w).mig.context := by
  cases w with
  | relay =>
    unfold State.grant State.grantRelay
    dsimp only
    split
    next k rest relay =>
      split
      next x slot =>
        obtain ⟨x', slot', queued⟩ := h.head relay
        rw [slot] at slot'
        cases slot'
        have issued := (h.issue slot queued).congr (u := (s.issue k x).setWait s.waitAfterRelay) rfl rfl
        have mig : ((s.issue k x).setWait s.waitAfterRelay).mig = s.mig := by simp
        rw [State.headTested_mig]
        rw [← mig] at issued
        exact issued.headTested
      · exact h
    · exact h
  | copy =>
    unfold State.grant State.grantCopy
    dsimp only
    split
    next t m p free context =>
      rw [context] at h
      have reading : s.Tracked (.copying m p (some (.reading (some { tag := t, deadline := s.deadlineNow })))) :=
        h.changeContext fun _ _ locks => locks
      exact reading.placed (e := backgroundEntry .copy m.source p .read) free nofun rfl rfl
    next t m p b free context =>
      rw [context] at h
      have writing : s.Tracked (.copying m p (some (.writing b (some { tag := t, deadline := s.deadlineNow })))) :=
        h.changeContext fun _ _ locks => locks
      exact writing.placed (e := backgroundEntry .copy (s.limit + m.target) p .write) free nofun rfl rfl
    · exact h
  | patrol =>
    unfold State.grant State.grantPatrol
    dsimp only
    split
    next free _ => exact h.placed (e := backgroundEntry .patrol _ _ .read) free nofun rfl rfl
    · exact h

theorem State.Tracked.takeGrant (h : s.Tracked s.mig.context) : s.takeGrant.Tracked s.takeGrant.mig.context := by
  have tested : s.headTested.Tracked s.headTested.mig.context := by
    rw [State.headTested_mig]
    exact h.headTested
  unfold State.takeGrant
  split
  · exact h
  · split
    · split
      · exact tested
      · exact tested.grant _
    · exact h.grant .relay
  · exact h.grant _

/-! ### Responses (R37, R44) -/

/-- A response for a slot that waits for it, its entry gone from the table: its half is answered, and with no half outstanding
the slot is freed. -/
theorem State.Tracked.requestResponse {c : Context} (h : s.Tracked c) {k : Nat} {t : Tag} {x : Slot}
    (slot : s.slot? k = some x) (waits : x.waits t) (gone : ∀ z ∈ s.arb.outstanding, z.1 ≠ t) (e : OutEntry) (a : Answer) :
    (requestResponse k t e a s).Tracked c := by
  have other : ∀ z ∈ s.arb.outstanding, x.waits z.1 → (x.answer t a).waits z.1 := fun z hz hw =>
    hw.answer (gone z hz) waits a
  have lawful : (x.answer t a).anyOutstanding = true → (x.answer t a).lawful := fun out => by
    have before := h.slots.lawful k x slot
    obtain active | orphan := waits.1
    · rw [Slot.lawful, active] at before
      rw [Slot.lawful, Slot.answer_state, active]
      exact ⟨out, by rw [Slot.answer_answered]; exact before.2⟩
    · rw [Slot.lawful, orphan] at before
      rw [Slot.lawful, Slot.answer_state, orphan]
      exact ⟨out, by rw [Slot.answer_answered]; exact before.2⟩
  unfold Machine.requestResponse
  rw [slot]
  dsimp only
  split
  next out =>
    refine h.setIssued slot waits.1 (y := some (x.answer t a)) (fun x' hx' => ?_) s.req.credits (by simp [State.setSlot])
      (by simp) (fun x' hx' => ?_) fun z hz hw => ⟨_, rfl, other z hz hw⟩
    · cases hx'
      rw [Slot.answer_state]
      exact waits.1
    · cases hx'
      exact lawful out
  next done =>
    have freed : ∀ u : State, u.req = (s.freeSlotCredit k).req → u.arb.outstanding = s.arb.outstanding → u.Tracked c :=
      fun u req out => h.setIssued slot waits.1 (y := none) (fun _ none => by cases none) (s.req.credits + 1) req out
        (fun _ none => by cases none) fun z hz hw => absurd (other z hz hw).anyOutstanding done
    split
    · exact freed _ (by simp [State.freeSlotCredit, State.sendUp]) (by simp)
    · exact freed _ (by simp [State.freeSlotCredit, State.sendUp]) (by simp)

theorem State.Tracked.tryRead (h : s.Tracked s.mig.context) : s.tryRead.Tracked s.tryRead.mig.context := by
  unfold State.tryRead
  split
  next m p context =>
    split
    · exact h
    · rw [context] at h
      exact (h.changeContext (c' := .copying m p (some (.reading none))) fun _ _ locks => locks).congr rfl rfl
  · exact h

/-- A commit locks no quad, and a migration in FINISHING had none locked. -/
theorem State.Tracked.commitMove {m : Move} (h : s.Tracked (.finishing m)) (m' : Move) :
    (s.commitMove m').Tracked (s.commitMove m').mig.context :=
  (h.changeContext (c' := .idle) nofun).congr (by simp) (by simp)

theorem State.Tracked.tryCommit (h : s.Tracked s.mig.context) : s.tryCommit.Tracked s.tryCommit.mig.context := by
  unfold State.tryCommit
  split
  next m context =>
    split
    · exact h
    · rw [context] at h
      exact h.commitMove m
  · exact h

theorem State.Tracked.writeRemoved (h : s.Tracked s.mig.context) (e : OutEntry) :
    (s.writeRemoved e).Tracked (s.writeRemoved e).mig.context := by
  unfold State.writeRemoved
  split
  · split
    · split
      · exact h.tryRead
      · exact h
    · split
      · exact h.tryCommit
      · exact h
    · exact h
  · exact h

theorem State.Tracked.failTarget {m : Move} {p : Nat} {lock : Option Lock} (h : s.Tracked (.copying m p lock))
    (cause : TargetCause) (firing : Option Nat) :
    (s.failTarget m lock cause firing).Tracked (s.failTarget m lock cause firing).mig.context := by
  refine (h.releaseLock rfl .idle).congr ?_ ?_
  · rw [State.failTarget, State.toIdle_req, State.retryDecision_req]; rfl
  · rw [State.failTarget_arb, State.releaseLock_arb]

theorem State.Tracked.stopMove {m : Move} {p : Nat} {lock : Option Lock} (h : s.Tracked (.copying m p lock))
    (record : RecordBody) : (s.stopMove m lock record).Tracked .idle := (h.releaseLock rfl .idle).congr rfl rfl

theorem State.Tracked.copyResponse (h : s.Tracked s.mig.context) (t : Tag) (a : Answer) :
    (copyResponse t a s).Tracked (copyResponse t a s).mig.context := by
  unfold Machine.copyResponse
  split
  next m p c context =>
    split
    · rw [context] at h
      exact (h.changeContext (c' := .copying m p (some (.writing (copyBuffer a) none))) fun _ _ locks => locks).congr
        (by simp) (by simp)
    · exact h
  next m p b c context =>
    rw [context] at h
    split
    · split
      · exact h.failTarget ..
      · unfold State.copyWritten
        split
        · exact (h.congr (u := s.setMig { s.mig with context := .copying m (p + 1) none }) rfl rfl).returnHeld _
        · exact ((h.congr (u := s.setMig { s.mig with context := .finishing m }) rfl rfl).returnHeld (.finishing m)).tryCommit
    · rwa [context]
  · exact h

theorem State.takeReport_context (s : State) (r : StatusReport) : (s.takeReport r).mig.context = s.mig.context :=
  takeReport_keeps (P := fun u => u.mig.context = s.mig.context) (C := fun _ => True) (fun _ _ hu => hu) (fun _ _ hu => hu)
    (fun _ _ _ hu _ _ _ => hu) (fun _ _ hu _ => hu) (fun _ _ hu => hu) (fun _ _ _ _ _ => trivial) (fun _ _ => trivial) rfl

theorem State.reportStatuses_context (s : State) (e : OutEntry) (a : Answer) (first : Bool) :
    (s.reportStatuses e a first).mig.context = s.mig.context := by
  unfold State.reportStatuses
  split
  · split
    · exact State.takeReport_context ..
    · rfl
  · rfl

theorem requestResponse_context (k : Nat) (t : Tag) (e : OutEntry) (a : Answer) (s : State) :
    (requestResponse k t e a s).mig.context = s.mig.context := by
  have reported : ∀ x : Slot, (s.reportIfSecondFailed x e t a).mig.context = s.mig.context := fun x => by
    unfold State.reportIfSecondFailed
    split <;> rfl
  unfold requestResponse
  split
  · rfl
  · dsimp only
    split
    · exact reported _
    · split <;> exact reported _

/-- The owner's handling of a response whose entry is gone from the table (R60). -/
theorem State.Tracked.route (h : s.Tracked s.mig.context) {t : Tag} {e : OutEntry}
    (owner : ∀ k, e.owner = .request k → ∃ x, s.slot? k = some x ∧ x.waits t)
    (gone : ∀ z ∈ s.arb.outstanding, z.1 ≠ t) (a : Answer) : (s.route t e a).Tracked (s.route t e a).mig.context := by
  unfold State.route
  split
  next k hk =>
    obtain ⟨x, slot, waits⟩ := owner k hk
    rw [requestResponse_context]
    exact h.requestResponse slot waits gone e a
  · exact h.copyResponse t a
  · rw [patrolResponse_mig]
    exact h.congr (by simp) (by simp)

theorem State.Tracked.response (h : s.Tracked s.mig.context) {t : Tag} {e : OutEntry} (entry : s.arb.entry? t = some e)
    (a : Answer) (first : Bool) :
    ((((s.removeTag t).reportStatuses e a first).route t e a).writeRemoved e).Tracked
      ((((s.removeTag t).reportStatuses e a first).route t e a).writeRemoved e).mig.context := by
  have reported : ((s.removeTag t).reportStatuses e a first).Tracked
      ((s.removeTag t).reportStatuses e a first).mig.context := by
    rw [State.reportStatuses_context]
    exact (h.removeTag t).congr (by simp) (by simp)
  refine State.Tracked.writeRemoved (reported.route (fun k hk => ?_) (fun z hz => ?_) a) e
  · rw [State.slot?_eq, State.reportStatuses_req]
    exact h.owners (t, e) (mem_of_entry? entry) k hk
  · rw [State.reportStatuses_arb] at hz
    simpa using (List.mem_filter.mp hz).2

/-! ### The other events -/

theorem State.Tracked.startRequest (h : s.Tracked s.mig.context) (idle : s.mig.context = .idle) (i : Nat)
    (r : RetireRequest) : (s.startRequest i r).Tracked (s.startRequest i r).mig.context := by
  rw [idle] at h
  exact (h.changeContext nofun).congr (by simp) (by simp)

theorem State.Tracked.takeFailure (h : s.Tracked s.mig.context) (r : FailureReport) :
    (s.takeFailure r).Tracked (s.takeFailure r).mig.context := by
  unfold State.takeFailure
  split
  next m p lock context =>
    split
    · rw [context] at h
      exact h.failTarget ..
    · exact h
  · exact h

/-- With the request unit emptied and the table empty the law stands under any context (R47, R63). -/
theorem State.tracked_of_emptied {r : RequestUnit} (length : r.slots.length = 64) (req : u.req = r.emptied)
    (out : u.arb.outstanding = []) (c : Context) : u.Tracked c := by
  have unused : ∀ k, r.emptied.slot? k = none := fun k => by
    simp only [RequestUnit.slot?, RequestUnit.emptied, List.getD_eq_getElem?_getD, List.getElem?_replicate]
    split <;> rfl
  refine ⟨?_, by rw [out]; exact fun _ hy => absurd hy List.not_mem_nil, by rw [out]; exact List.nodup_nil⟩
  rw [req]
  refine ⟨by simp [RequestUnit.emptied, length], List.nodup_nil, List.nodup_nil, Nat.zero_le _, fun k => ?_, fun k => ?_,
    fun k x hx => ?_, fun k x hx => ?_⟩
  · exact ⟨nofun, fun ⟨x, hx, _⟩ => by rw [unused] at hx; cases hx⟩
  · exact ⟨nofun, fun ⟨x, hx, _⟩ => by rw [unused] at hx; cases hx⟩
  · rw [unused] at hx; cases hx
  · rw [unused] at hx; cases hx

theorem State.Tracked.migrationReset (h : s.Tracked s.mig.context) :
    s.migrationReset.Tracked s.migrationReset.mig.context := by
  unfold State.migrationReset
  split
  · exact h
  next m p lock context =>
    rw [context] at h
    exact (h.stopMove (.migAborted m.req.l .portReset)).congr rfl rfl
  next m context =>
    rw [context] at h
    exact h.commitMove m

/-- A slot not issued that times out leaves its queue and is freed (R43). -/
theorem State.Tracked.timeout {c : Context} (h : s.Tracked c) {k : Nat} {x : Slot} (slot : s.slot? k = some x)
    (waiting : x.state = .queued ∨ x.state = .held) (t : Nat) (m : UpMessage) (p : Producer) (b : RecordBody) :
    (((((s.advanceTo t).sendUp m).leaveQueues k).freeSlotCredit k).hand p b).Tracked c :=
  h.freed slot waiting (s.req.credits + 1) rfl rfl

/-- Every event keeps the law of the tracker. -/
theorem State.Tracked.event (h : s.Tracked s.mig.context) (hu : s.Event u) : u.Tracked u.mig.context := by
  cases hu with
  | nothing => exact h
  | passes | rise | overrun | rejected | credits | gapExpired | offered | skipped | decayed | fweChanged | recordTaken
  | bitReported | markerReported | startEventSpent | ready | verified => exact h.congr rfl rfl
  | readyReleased | riseReleased =>
    exact ⟨⟨h.slots.length, h.slots.relayNodup, h.slots.holdNodup, h.slots.short, h.slots.relay, h.slots.hold,
      h.slots.locked, h.slots.lawful⟩, h.owners, h.tags⟩
  | ticks d =>
    rw [State.passMilliseconds_mig]
    exact h.congr (by simp) (by simp)
  | ticksAndDecayed d =>
    change State.Tracked _ (s.passMilliseconds d).mig.context
    rw [State.passMilliseconds_mig]
    exact h.congr (by simp) (by simp)
  | fall =>
    have emptied : State.Tracked { s with
        prstN := false, req := s.req.emptied, arb := s.arb.inReset, patrol := { s.patrol with state := .off } }
        s.mig.context := State.tracked_of_emptied h.slots.length rfl rfl _
    exact emptied.migrationReset
  | accepted k kind tag size addr beats deadline credit free =>
    rw [State.accept_mig]
    exact h.accept free rfl ⟨rfl, rfl, rfl, rfl⟩
  | grant => exact h.takeGrant
  | response tag e a first link entry => exact h.response entry a first
  | report k r =>
    rw [State.takeReport_context]
    exact h.congr (by simp) (by simp)
  | failure k r =>
    exact State.Tracked.takeFailure (s := s.setMig { s.mig with failures := s.mig.failures.eraseIdx k }) (h.congr rfl rfl) r
  | started i r may =>
    simp only [State.mayStart, Bool.and_eq_true, beq_iff_eq] at may
    exact h.startRequest may.1.1 i r
  | claimed m p context =>
    rw [context] at h
    exact State.Tracked.tryRead (s := s.setMig { s.mig with context := .copying m p (some .claimed) })
      ((h.changeContext nofun).congr rfl rfl)
  | drained => exact h.tryRead
  | committed => exact h.tryCommit
  | copyReadTimeout m p c context =>
    rw [context] at h
    exact (State.Tracked.stopMove (s := s.advanceTo c.deadline) (h.congr rfl rfl) (.migFailed m.req.l .timeout)).congr rfl rfl
  | copyWriteTimeout m p b c context =>
    rw [context] at h
    exact State.Tracked.failTarget (s := s.advanceTo c.deadline) (h.congr rfl rfl) ..
  | orphaned k x slot active =>
    have lawful := h.slots.lawful k x slot
    rw [Slot.lawful, active] at lawful
    refine h.setIssued slot (.inl active) (y := some { x with state := .orphan, answered := true }) (fun x' hx' => ?_)
      s.req.credits rfl rfl (fun x' hx' => ?_) fun z hz hw => ⟨_, rfl, .inr rfl, hw.2⟩
    · cases hx'
      exact .inr rfl
    · cases hx'
      exact ⟨lawful.1, rfl⟩
  | queuedTimeout k x slot queued =>
    rw [State.testIfNewHead_mig]
    exact (h.timeout slot (.inl queued) ..).testIfNewHead _
  | heldTimeout k x slot held => exact h.timeout slot (.inr held) ..
  | heldTimeoutUnstalls k x slot held =>
    rw [State.headTested_mig]
    exact (h.timeout slot (.inr held) ..).headTested
  | patrolTimeout b q t deadline =>
    rw [State.endPatrolRead_mig]
    exact h.congr (by simp) (by simp)

/-- Every command keeps the law of the tracker. -/
theorem State.Tracked.command (h : s.Tracked s.mig.context) (hu : s.Commanded u) : u.Tracked u.mig.context := by
  cases hu with
  | unchanged => exact h
  | mapped | unmapped | banned | retiring | cancelled | rearmed | acknowledged | committing => exact h.congr rfl rfl
  | paramSet p v => cases p <;> exact h.congr rfl rfl
  | cleared =>
    rw [State.freeSuspect_mig]
    exact h.congr (by simp) (by simp)
  | aborted m p lock context =>
    rw [context] at h
    exact (h.stopMove (.migAborted m.req.l .manual)).congr rfl rfl

end Operations

/-- The tracker at the rise of PWR_OK. -/
theorem tracked_atRise (f : List FuseWord) (prst fwe : Bool) (mcs : McsLine) (q : List Instr) (c : Context) :
    (State.atRise f prst fwe mcs q).Tracked c :=
  State.tracked_of_emptied (r := (State.atRise f prst fwe mcs q).req) List.length_replicate rfl rfl c

theorem trackerLaw_kept : KeptByParts TrackerLaw where
  pending := fun _ _ h => h
  port := fun _ _ _ h => h
  powerOn := fun s straps prst mcs _ =>
    trackerLaw_iff.mpr ((tracked_atRise s.fuseArray prst straps.fweHigh (McsLine.found mcs) s.pending _).congr rfl rfl)
  powerLoss := fun s _ _ =>
    trackerLaw_iff.mpr ((tracked_atRise s.fuseArray s.prstN s.fwe s.port.mcs s.pending _).congr rfl rfl)
  event := fun _ _ _ h hu => trackerLaw_iff.mpr ((trackerLaw_iff.mp h).event hu)
  command := fun _ _ h hu => trackerLaw_iff.mpr ((trackerLaw_iff.mp h).command hu)

/-- Settles O58: credits and slots in use by `State.Event.keepsPlaces`, the tracker by `State.Tracked.event`. -/
theorem requestLawsKept : Obligations.RequestLawsKept := ⟨fun _ _ => creditLaw_kept.step, fun _ _ => trackerLaw_kept.step⟩

end Sys2Proof.Machine
end

section
/-! The laws at the rise of PWR_OK, and the step of the part (log 5). -/

namespace Sys2Proof.Machine

/-! ### The laws in the reset state -/

/-- Settles O55: the values of the rise satisfy each law, by the same facts that start it in the step laws. -/
theorem lawsHoldAtReset : Obligations.LawsHoldAtReset :=
  ⟨alertLaw_iff.mpr rfl, ⟨by decide, by decide, rfl⟩, suspectLaw_iff.mpr suspectTable_kept.start,
    onTime_kept.start, tagLaw_iff.mpr (.empty ..), rfl, creditLaw_iff.mpr ⟨rfl, rfl⟩,
    trackerLaw_iff.mpr (tracked_atRise ..), retireLaw_iff.mpr retireLaw_requests.empty,
    mapLaw_iff.mpr (LoadingTable.start _).agrees,
    fuseLaw_iff.mpr ⟨by decide, pendingOnly_replicate _ _, nofun, trivial, nofun, nofun⟩,
    patrolLaw_iff.mpr (.off (Nat.zero_lt_succ _) (.inr rfl) rfl), paramsLaw_iff.mpr ⟨.defaults, retries_requests.empty.2⟩⟩

/-! ### The step -/

/-- Settles O1: the three cases of the definition. -/
theorem stepTakesFrontCommand : Obligations.StepTakesFrontCommand := by
  have idle : ∀ s : State, s.pending = [] → step s = .next s.idle := fun s h => by
    unfold step
    rw [h]
  refine ⟨fun c rest s h => ?_, fun s h high => ?_, fun s h low => ?_⟩
  · unfold step
    rw [h]
  · rw [idle s h, State.idle, powered_of_high high]
    rfl
  · rw [idle s h, State.idle, powered_of_low low]

/-- No event of a unit reaches the queue of waiting commands. -/
theorem State.Event.pending {s u : State} (h : s.Event u) : u.pending = s.pending := by cases h <;> simp

/-- No command reaches the queue of waiting commands. -/
theorem State.Commanded.pending {s u : State} (h : s.Commanded u) : u.pending = s.pending := by
  cases h with
  | paramSet p v => cases p <;> rfl
  | _ => simp [State.acceptCommit]

/-- Settles O2: `exec_cases` says what each command's next state is. -/
theorem everyCommandAnswersNext : Obligations.EveryCommandAnswersNext := by
  intro c s
  obtain ⟨t, ht⟩ : ∃ t, exec c s = .next t := by cases c <;> exact ⟨_, rfl⟩
  refine ⟨t, ht, ?_⟩
  obtain ⟨straps, prst, mcs, rfl⟩ | rfl | rfl | he | ⟨v, p, hv, -, rfl⟩ := exec_cases ht
  · rfl
  · unfold powerLossEffect powered
    split <;> rfl
  · rfl
  · cases hp : s.pwrOk with
    | true => exact (eventEffect_event hp he).pending
    | false => rw [eventEffect_of_low hp he]
  · exact hv.pending

/-! ### The values of the rise -/

/-- Settles O3: each value as `State.atRise` writes it. -/
theorem resetHoldsTheRiseValues : Obligations.ResetHoldsTheRiseValues := by
  refine ⟨fun k hk => ?_, List.length_replicate, rfl, rfl, rfl, rfl, rfl, rfl, rfl, rfl, rfl, rfl, rfl, rfl, rfl, rfl, rfl,
    rfl, rfl, rfl, rfl, rfl, rfl⟩
  change (List.replicate 128 Entry.free)[k]? = some .free
  rw [List.getElem?_replicate, if_pos hk]

end Sys2Proof.Machine
end

section
/-! Power, port reset, straps and ticks (R46, R47, R63, R64, R93, R94, R97, R98, R153, R157): what each command's next state is. -/

namespace Sys2Proof.Machine

/-! ### While PWR_OK is low (R153) -/

section Low

variable {s : State} (hp : s.pwrOk = false)

include hp

theorem command_of_low (c : Command) (args : List Byte) (run : State → Reply) : command c args s run = s :=
  atPort_of_low hp _

theorem resultReadEffect_of_low (args : List Byte) (clocked : Nat) : resultReadEffect args clocked s = s := by
  unfold resultReadEffect
  split
  · exact atPort_of_low hp _
  · exact command_of_low hp ..

theorem runFrame_of_low (code : Byte) (args : List Byte) : runFrame code args s = s := by
  unfold runFrame
  split
  next c _ =>
    by_cases h : c = .resultRead → args ≠ []
    · rw [runCommand_eq h]
      exact command_of_low hp ..
    · push Not at h
      obtain ⟨rfl, rfl⟩ := h
      exact resultReadEffect_of_low hp [] 0
  · exact atPort_of_low hp _

theorem endFrame_of_low (msi : List Bool) : endFrame msi s = s := by
  unfold endFrame
  dsimp only
  split
  · exact atPort_of_low hp _
  · exact atPort_of_low hp _
  · exact runFrame_of_low hp ..

/-- While PWR_OK is low no command but POWER_ON changes anything (R153). -/
theorem exec_of_low {c : Instr} (notOn : ∀ straps p m, c ≠ .powerOn straps p m) : exec c s = .next s := by
  have event : ∀ u, eventEffect c s = some u → exec c s = .next u → exec c s = .next s := fun u he hu => by
    rw [hu, eventEffect_of_low hp he]
  cases c
  case powerOn => exact (notOn _ _ _ rfl).elim
  case powerLoss => exact congrArg Host.Outcome.next (powered_of_low hp _)
  case upstreamOtherMessage | downstreamOtherMessage => rfl
  case malformedFrame => exact congrArg Host.Outcome.next (endFrame_of_low hp _)
  case unknownCommand => exact congrArg Host.Outcome.next (runFrame_of_low hp ..)
  case resultRead => exact congrArg Host.Outcome.next (resultReadEffect_of_low hp ..)
  case getStatus | getParam | setParam | readMap | mapSoft | unmapSoft | banSpare | retire | cancelRetire | abortMigration
    | readMigration | readSuspect | clearSuspect | rearm | readFaults | ackFaults | commitHard | commitBan | readFuse =>
    exact congrArg Host.Outcome.next (command_of_low hp ..)
  all_goals exact event _ rfl rfl

end Low

/-! ### POWER_ON and POWER_LOSS (R1, R153, R154, R167) -/

/-- The straps select the capacity (R1). -/
theorem Capacity.blocks_ofStraps (cap : BitVec 2) : (Capacity.ofStraps cap).blocks = 131072 * 2 ^ cap.toNat := by
  revert cap
  decide

/-- Settles O4: the values of the rise, and `exec_of_low`. -/
theorem powerCycles : Obligations.PowerCycles := by
  refine ⟨fun s high => ?_, fun c s low notOn => exec_of_low low notOn, fun cap prst fwe mcs s => ?_⟩
  · exact ⟨_, congrArg Host.Outcome.next (powered_of_high high _), rfl, rfl, rfl, rfl, rfl, rfl, rfl, rfl, rfl, rfl, rfl,
      rfl⟩
  · have blocks := Capacity.blocks_ofStraps cap
    refine ⟨powerOnEffect { cap := cap, fweHigh := fwe } prst mcs s, rfl, rfl, rfl, rfl, rfl, rfl, blocks, ?_, rfl, rfl, rfl,
      rfl, rfl, rfl, rfl, rfl, rfl, rfl, rfl, rfl, rfl, rfl, rfl, rfl, rfl, rfl, rfl⟩
    exact congrArg (· - 128) blocks

/-! ### READY and the rise of PRST_N (R46, R49, R64, R71, R122, R157) -/

/-- No record of LOADING waits exactly when none of the records handed is the fuse unit's. -/
theorem RecordUnit.holdsLoading_iff {r : RecordUnit} : r.holdsLoading = true ↔ ∃ h ∈ r.handed, h.producer = .fuse := by
  simp [RecordUnit.holdsLoading]

/-- READY with the records of LOADING taken: the part is READY, and the links are released if PRST_N is high. -/
theorem readyEffect_of_loaded {s : State} (high : s.pwrOk = true) (loading : s.fuse.part = .loading)
    (capacity : s.fuse.capacity ≠ none) (pointer : s.fuse.appendPtr ≠ none) (taken : ∀ h ∈ s.recs.handed, h.producer ≠ .fuse) :
    readyEffect s =
      if s.prstN then
        State.release { s with fuse := { s.fuse with part := .ready }, mig := { s.mig with startEvent := true } }
      else { s with fuse := { s.fuse with part := .ready }, mig := { s.mig with startEvent := true } } := by
  have ready : s.isReady ≠ true := by rw [State.isReady, loading]; decide
  have none : ¬s.recs.holdsLoading = true := fun h => by
    obtain ⟨x, hx, fuse⟩ := RecordUnit.holdsLoading_iff.mp h
    exact taken x hx fuse
  rw [readyEffect, powered_of_high high, if_neg]
  rintro (h | h | h | h)
  · exact ready h
  · exact capacity h
  · exact pointer h
  · exact none h

/-- Settles O6: `readyEffect_of_loaded`, and the two branches of PRST_N_RISE. -/
theorem readyAndRiseReleaseLinks : Obligations.ReadyAndRiseReleaseLinks := by
  have rise : ∀ s : State, s.pwrOk = true → s.prstN = false → exec .prstNRise s =
      .next (if s.isReady then State.release { s with prstN := true, mig := { s.mig with startEvent := true } }
        else { s with prstN := true }) := fun s high low => by
    refine congrArg Host.Outcome.next ?_
    rw [prstRiseEffect, powered_of_high high, if_neg (by rw [low]; decide)]
  refine ⟨fun s high loading capacity pointer taken low => ?_, fun s high loading capacity pointer taken prst => ?_,
    fun s high ready low => ?_, fun s high loading low => ?_, fun s waiting => ?_⟩
  · change Host.Outcome.next (readyEffect s) = _
    rw [readyEffect_of_loaded high loading capacity pointer taken, low]
    rfl
  · change Host.Outcome.next (readyEffect s) = _
    rw [readyEffect_of_loaded high loading capacity pointer taken, prst]
    rfl
  · rw [rise s high low, State.isReady, ready]
    rfl
  · rw [rise s high low, State.isReady, loading]
    rfl
  · refine congrArg Host.Outcome.next ?_
    cases high : s.pwrOk with
    | false => exact powered_of_low high _
    | true =>
      rw [readyEffect, powered_of_high high, if_pos]
      exact .inr (.inr (.inr (RecordUnit.holdsLoading_iff.mpr waiting)))

/-! ### The falling edge of PRST_N (R47, R63, R93, R94, R133) -/

/-- The falling edge before the migration unit takes its part. -/
def State.edged (s : State) : State :=
  { s with prstN := false, req := s.req.emptied, arb := s.arb.inReset, patrol := { s.patrol with state := .off } }

theorem exec_prstNFall {s : State} (high : s.pwrOk = true) (prst : s.prstN = true) :
    exec .prstNFall s = .next s.edged.migrationReset := by
  refine congrArg Host.Outcome.next ?_
  rw [prstFallEffect, powered_of_high high, if_pos prst]
  rfl

theorem State.migrationReset_context (s : State) : s.migrationReset.mig.context = .idle := by
  unfold State.migrationReset
  split
  next idle => exact idle
  · rfl
  · rfl

/-- Settles O7: each context's branch of `State.migrationReset`. -/
theorem prstFallEmptiesPaths : Obligations.PrstFallEmptiesPaths := by
  refine ⟨fun s high prst => ⟨_, exec_prstNFall high prst, ?_⟩, fun s high prst idle => ⟨_, exec_prstNFall high prst, ?_⟩,
    fun s m p lock high prst context => ⟨_, exec_prstNFall high prst, ?_⟩,
    fun s m high prst context length target source nodup => ⟨_, exec_prstNFall high prst, ?_⟩, fun s low => ?_⟩
  · have handed : s.edged.handsOn s.edged.migrationReset := State.migrationReset_handsOn
    obtain ⟨hs, records⟩ := handed
    refine ⟨?_, State.migrationReset_req_of_emptied rfl, ?_, ?_, State.migrationReset_context _, ?_, ?_, ?_, ?_, ?_, ?_, ?_,
      ?_⟩
    case refine_1.refine_11 => rw [records]; rfl
    all_goals simp only [State.migrationReset_prstN, State.migrationReset_arb, State.migrationReset_patrol,
      State.migrationReset_upSent, State.migrationReset_downSent, State.migrationReset_fuse, State.migrationReset_port,
      State.migrationReset_clock, State.migrationReset_fwe, State.migrationReset_fuseArray]; rfl
  · have same : s.edged.migrationReset = s.edged := by
      unfold State.migrationReset
      rw [show s.edged.mig.context = .idle from idle]
    rw [same]
    exact ⟨rfl, rfl, rfl, rfl⟩
  · have stopped : s.edged.migrationReset =
        ((s.edged.stopMove m lock (.migAborted m.req.l .portReset)).returnRequest m.req).toIdle := by
      unfold State.migrationReset
      rw [show s.edged.mig.context = .copying m p lock from context]
    rw [stopped]
    refine ⟨?_, ?_, ?_, ?_⟩
    · simp only [State.toIdle_mig, State.returnRequest_mig, State.stopMove_mig]; rfl
    · simp only [State.toIdle_table, State.returnRequest_table, State.stopMove, State.hand_table, State.releaseTarget_table,
        State.releaseLock_table]; rfl
    · simp only [State.toIdle_watch, State.returnRequest_watch, State.stopMove_watch]; rfl
    · simp only [State.toIdle_recs, State.returnRequest_recs, State.stopMove, State.hand, State.releaseTarget_recs,
        State.releaseLock_recs]; rfl
  · have committed : s.edged.migrationReset = s.edged.commitMove m := by
      unfold State.migrationReset
      rw [show s.edged.mig.context = .finishing m from context]
    rw [committed]
    refine ⟨?_, ?_, ?_⟩
    · exact State.commitMove_switchedBy (s := s.edged) (target.trans_eq length.symm) source nodup
    · simp only [State.commitMove, State.toIdle_mig, State.hand_mig, State.freeSuspect_mig]; rfl
    · simp only [State.commitMove, State.toIdle_recs, State.hand, State.freeSuspect_recs]; rfl
  · refine congrArg Host.Outcome.next ?_
    cases high : s.pwrOk with
    | false => exact powered_of_low high _
    | true => rw [prstFallEffect, powered_of_high high, if_neg (by rw [low]; decide)]

/-! ### FWE and the tick (R97, R98, R149, R159, R163) -/

/-- A tick takes the decay expiry that is due before it counts, so the expiry taken just before makes no difference (R114). -/
theorem WatchUnit.pass_decay {w : WatchUnit} (due : w.decayDue = true) {period d : Nat} (hd : d ≠ 0) (hp : period ≠ 0) :
    w.decay.pass period d = w.pass period d := by
  have taken : w.takeDue = w.decay := by rw [WatchUnit.takeDue, due]; rfl
  simp only [WatchUnit.pass, if_neg hd, if_neg hp, WatchUnit.decay_decayCount, taken, WatchUnit.takeDue_of_not w.decay_decayDue]
  rfl

theorem PatrolUnit.pass_number (p : PatrolUnit) (gap d : Nat) :
    (p.pass gap d).block = p.block ∧ (p.pass gap d).quad = p.quad ∧ (p.pass gap d).state.number = p.state.number := by
  unfold PatrolUnit.pass
  split
  next n gap => rw [gap]; exact ⟨rfl, rfl, rfl⟩
  · exact ⟨rfl, rfl, rfl⟩

theorem exec_epochTick {s : State} (high : s.pwrOk = true) : exec .epochTick s = .next (s.passMilliseconds 1) :=
  congrArg Host.Outcome.next (powered_of_high high _)

/-- One tick, unit by unit. -/
theorem State.passMilliseconds_one (s : State) :
    s.passMilliseconds 1 =
      { s with
        clock :=
          { epoch := s.clock.epoch + 1#32, now := s.clock.now + (s.clock.tickAt - s.clock.now),
            tickAt := s.clock.tickAt + 1000 }
        watch := s.watch.pass (s.params.decayPeriod * 100) 1
        fuse := { s.fuse with programmer := s.fuse.programmer.pass 1 }
        patrol := s.patrol.pass s.params.patrolGap (s.clock.tickAt - s.clock.now) } := rfl

/-- Settles O8: the tick by `State.passMilliseconds_one` and the laws of `WatchUnit.pass`. -/
theorem fweAndTickAdvance : Obligations.FweAndTickAdvance := by
  refine ⟨fun level s high => congrArg Host.Outcome.next (powered_of_high high _), fun s high => ?_,
    fun s u high running due taken => ?_⟩
  · refine ⟨_, exec_epochTick high, ?_⟩
    rw [State.passMilliseconds_one]
    obtain ⟨block, quad, number⟩ := s.patrol.pass_number s.params.patrolGap (s.clock.tickAt - s.clock.now)
    refine ⟨rfl, fun stopped => ?_, fun notDue below => ?_, fun notDue reached => ?_, fun idle => ?_,
      fun slot record timer reported programming => ⟨fun inTime => ?_, fun late => ?_⟩, fun slot record timer verifying => ?_,
      block, quad, number, rfl⟩
    · change s.watch.pass _ 1 = _
      rw [stopped, Nat.zero_mul, WatchUnit.pass_stopped _ one_ne_zero]
    · change s.watch.pass _ 1 = _
      rw [WatchUnit.pass_below _ one_ne_zero below, WatchUnit.takeDue_of_not notDue, ← notDue]
    · change s.watch.pass _ 1 = _
      rw [WatchUnit.pass_reaches _ one_ne_zero reached, WatchUnit.takeDue_of_not notDue]
    · change { s.fuse with programmer := s.fuse.programmer.pass 1 } = s.fuse
      rw [idle, Programmer.pass, ← idle]
    · change { s.fuse with programmer := s.fuse.programmer.pass 1 } = _
      rw [programming, Programmer.pass, if_pos (show timer + 1 < Config.programmingLimit from inTime)]
    · change { s.fuse with programmer := s.fuse.programmer.pass 1 } = _
      rw [programming, Programmer.pass, if_neg (show ¬timer + 1 < Config.programmingLimit from Nat.not_lt.mpr late)]
      rfl
    · change { s.fuse with programmer := s.fuse.programmer.pass 1 } = _
      rw [verifying]
      rfl
  · have decayed : decayExpiryEffect s = { s with watch := s.watch.decay } := by
      rw [decayExpiryEffect, powered_of_high high, if_neg running]
      dsimp only
      rw [due]
      rfl
    have eq : decayExpiryEffect s = u := Host.Outcome.next.inj taken
    rw [← eq, decayed, exec_epochTick high, exec_epochTick (s := { s with watch := s.watch.decay }) high,
      State.passMilliseconds_one, State.passMilliseconds_one]
    dsimp only [State.params]
    rw [WatchUnit.pass_decay (period := s.port.params.decayPeriod * 100) due one_ne_zero
      (Nat.mul_ne_zero running (by decide))]

/-! ### Other messages and credit grants (R51, R197, R198) -/

/-- Settles O9: the three effects as the model writes them. -/
theorem messagesDiscardedOrCounted : Obligations.MessagesDiscardedOrCounted := by
  refine ⟨fun _ _ => rfl, fun _ _ => rfl, fun count s high link => congrArg Host.Outcome.next ?_⟩
  rw [creditGrantEffect, powered_of_high high, if_pos link]
  rfl

end Sys2Proof.Machine
end

section
/-! Arrivals, steering and translation (R6, R27, R28, R31, R74, R75, R197): what each command's next state is. -/

namespace Sys2Proof.Machine

/-! ### The checks of an arrival (R27, R197) -/

theorem RequestUnit.tagInUse_iff {r : RequestUnit} {tag : Tag} :
    r.tagInUse tag = true ↔ ∃ x : Slot, some x ∈ r.slots ∧ x.answered = false ∧ x.tag = tag := by
  rw [RequestUnit.tagInUse, List.any_eq_true]
  constructor
  · rintro ⟨_ | x, hx, inUse⟩
    · cases inUse
    · simp only [Bool.and_eq_true, Bool.not_eq_true', beq_iff_eq] at inUse
      exact ⟨x, hx, inUse⟩
  · rintro ⟨x, hx, waiting, same⟩
    exact ⟨some x, hx, by simp [waiting, same]⟩

theorem RequestUnit.tagInUse_eq_false {r : RequestUnit} {tag : Tag}
    (h : ∀ x : Slot, some x ∈ r.slots → x.answered = false → x.tag ≠ tag) : r.tagInUse tag = false := by
  rw [← Bool.not_eq_true, RequestUnit.tagInUse_iff]
  rintro ⟨x, hx, waiting, same⟩
  exact h x hx waiting same

/-- Code c stands for 2 to the c lines, but for code 3, which stands for no size (11.1). -/
theorem Size.ofCode_lines (code : BitVec 2) :
    (Size.ofCode code).map Size.lines = if code = 3#2 then none else some (2 ^ code.toNat) := by
  revert code
  decide

theorem Size.ofCode_code (size : Size) : Size.ofCode size.code = some size := by cases size <;> rfl

section Check

variable {s : State} {kind : Access} {tag : Tag} {code : BitVec 2} {addr : Addr} {beats : Nat}

theorem State.checkArrival_tagInUse (h : s.req.tagInUse tag = true) :
    s.checkArrival kind tag code addr beats = .error .tagInUse := by
  rw [State.checkArrival, if_pos h]

theorem State.checkArrival_align (fresh : s.req.tagInUse tag = false)
    (h : code = 3#2 ∨ addr.toNat % (64 * 2 ^ code.toNat) ≠ 0 ∨ (kind = .write ∧ beats ≠ 2 ^ code.toNat)) :
    s.checkArrival kind tag code addr beats = .error .align := by
  have lines := Size.ofCode_lines code
  rw [State.checkArrival, if_neg (by rw [fresh]; decide)]
  split
  · rfl
  next size some =>
    have known : code ≠ 3#2 := fun three => by rw [some, if_pos three] at lines; cases lines
    rw [some, if_neg known] at lines
    rw [Option.some.inj lines]
    obtain three | unaligned | wrongBeats := h
    · exact absurd three known
    · rw [if_pos unaligned]
    · split
      · rfl
      · rfl

/-- An arrival whose form is right is checked against the limit at last (R27). -/
theorem State.checkArrival_formed (fresh : s.req.tagInUse tag = false) {size : Size} (known : Size.ofCode code = some size)
    (aligned : addr.toNat % (64 * size.lines) = 0) (counted : kind = .write → beats = size.lines) :
    s.checkArrival kind tag code addr beats = if s.limit ≤ blockOf addr then .error .range else .ok size := by
  rw [State.checkArrival, if_neg (by rw [fresh]; decide), known]
  dsimp only
  rw [if_neg (not_not_intro aligned), if_neg fun ⟨write, wrong⟩ => wrong (counted write)]

end Check

section Arrival

variable {s : State} {kind : Access} {tag : Tag} {code : BitVec 2} {addr : Addr} {beats : List WriteLine}

/-- A rejected arrival that holds a credit is answered, and its credit granted back (R27). -/
theorem exec_upstreamRequest_rejected (high : s.pwrOk = true) (credit : s.req.credits ≠ 0) {reason : RejectReason}
    (h : s.checkArrival kind tag code addr beats.length = .error reason) :
    exec (.upstreamRequest kind tag code addr beats) s =
      .next { s with upSent := s.upSent ++ [.response tag (.rejected reason) code [], .credit 1#8] } := by
  refine congrArg Host.Outcome.next ?_
  rw [upstreamRequestEffect, powered_of_high high, if_neg credit, h]
  simp [State.sendUp]

theorem exec_upstreamRequest_accepted (high : s.pwrOk = true) (credit : s.req.credits ≠ 0) {size : Size}
    (h : s.checkArrival kind tag code addr beats.length = .ok size) {k : Nat} (free : s.req.freeSlot = some k) :
    exec (.upstreamRequest kind tag code addr beats) s =
      .next (s.accept k (newSlot kind tag size addr beats (s.clock.now + s.params.respTimeout))) := by
  refine congrArg Host.Outcome.next ?_
  rw [upstreamRequestEffect, powered_of_high high, if_neg credit, h]
  dsimp only
  rw [free]

end Arrival

/-- Settles O10: the outcome of the checks by the lemmas of `State.checkArrival`. -/
theorem arrivalRejectedByFirstCheck : Obligations.ArrivalRejectedByFirstCheck := by
  intro kind tag code addr beats s high
  refine ⟨fun none => congrArg Host.Outcome.next ?_, fun credit inUse => ?_, fun credit fresh wrong => ?_,
    fun credit fresh known aligned counted beyond => ?_⟩
  · rw [upstreamRequestEffect, powered_of_high high, if_pos none]
    rfl
  · exact exec_upstreamRequest_rejected high credit (State.checkArrival_tagInUse (RequestUnit.tagInUse_iff.mpr inUse))
  · exact exec_upstreamRequest_rejected high credit
      (State.checkArrival_align (RequestUnit.tagInUse_eq_false fresh) wrong)
  · have lines := Size.ofCode_lines code
    rw [if_neg known] at lines
    obtain ⟨size, hs, hl⟩ := Option.map_eq_some_iff.mp lines
    refine exec_upstreamRequest_rejected high credit ?_
    rw [State.checkArrival_formed (RequestUnit.tagInUse_eq_false fresh) hs (hl ▸ aligned) (hl ▸ counted)]
    exact if_pos beyond

/-! ### An accepted arrival (R25, R28, R31) -/

/-- The lowest-numbered free slot is the one an arrival takes (log 17). -/
theorem RequestUnit.freeSlot_of_lowest {r : RequestUnit} {k : Nat} (free : r.slots[k]? = some none)
    (lowest : ∀ j < k, r.slots[j]? ≠ some none) : r.freeSlot = some k := by
  obtain ⟨inside, read⟩ := List.getElem?_eq_some_iff.mp free
  refine List.findIdx?_eq_some_iff_getElem.mpr ⟨inside, by rw [read]; rfl, fun j hj => ?_⟩
  have := lowest j hj
  rw [List.getElem?_eq_getElem (hj.trans inside)] at this
  cases hs : r.slots[j] with
  | none => exact absurd (congrArg some hs) this
  | some x => exact Bool.false_ne_true

/-- The hold test leaves a state whose head is not held or finds no room. -/
theorem State.headTested_of_not {s : State} (h : ∀ k rest, s.req.relay = k :: rest → s.held k = true →
    s.req.holdHasRoom = false) : s.headTested = s := by
  unfold State.headTested testHead
  change (match s.req.relay with
    | k :: rest => if s.held k && s.req.holdHasRoom then testHead 3 (s.moveToHold k rest) else s
    | [] => s) = s
  split
  next k rest relay =>
    rw [if_neg]
    rw [Bool.and_eq_true]
    rintro ⟨held, room⟩
    exact absurd room (by rw [h k rest relay held]; decide)
  · rfl

/-- A head that is held and finds room is moved, and with no other slot behind it the test is over. -/
theorem State.headTested_of_last {s : State} {k : Nat} (relay : s.req.relay = [k]) (held : s.held k = true)
    (room : s.req.holdHasRoom = true) : s.headTested = s.moveToHold k [] := by
  have done : ∀ n, testHead n (s.moveToHold k []) = s.moveToHold k [] := fun n => by cases n <;> rfl
  change testHead (3 + 1) s = _
  rw [testHead, relay]
  dsimp only
  rw [held, room]
  exact done 3

/-- The hold test of a slot that stands in the tracker is the one of the statements. -/
theorem State.held_iff_meetsHold {s : State} {k : Nat} {x : Slot} (slot : s.slot? k = some x) :
    s.held k = true ↔ s.meetsHold x.l x.q x.kind := by
  simp [State.held, slot, State.holdTest, State.meetsHold]

/-- Settles O11: the checks by `State.checkArrival_formed`, the hold test of a slot that becomes head by the lemmas of
`State.headTested`. -/
theorem arrivalAccepted : Obligations.ArrivalAccepted := by
  rintro kind tag size addr beats k s high credit fresh aligned counted below free lowest x rfl
  have inside : k < s.req.slots.length := (List.getElem?_eq_some_iff.mp free).1
  have checked : s.checkArrival kind tag size.code addr beats.length = .ok size := by
    rw [State.checkArrival_formed (RequestUnit.tagInUse_eq_false fresh) (Size.ofCode_code size) aligned counted]
    exact if_neg (Nat.not_le.mpr below)
  rw [exec_upstreamRequest_accepted high credit checked (RequestUnit.freeSlot_of_lowest free lowest)]
  generalize hx : newSlot kind tag size addr beats (s.clock.now + s.params.respTimeout) = x
  have kindOf : x.kind = kind := by rw [← hx]; rfl
  have block : x.l = addr.toNat / 16384 := by rw [← hx]; rfl
  have quad : x.q = addr.toNat % 16384 / 256 := by rw [← hx]; rfl
  change (_ → Host.Outcome.next _ = Host.Outcome.next { s with
      req :=
        { credits := s.req.credits - 1, slots := s.req.slots.set k (some (newSlot _ _ _ _ _ _)), relay := s.req.relay ++ [k],
          hold := s.req.hold } }) ∧
    (_ → _ → _ → Host.Outcome.next _ = Host.Outcome.next { s with
      req :=
        { credits := s.req.credits - 1, slots := s.req.slots.set k (some { newSlot _ _ _ _ _ _ with state := .held }),
          relay := [], hold := s.req.hold ++ [k] } })
  rw [hx, ← block, ← quad, ← kindOf]
  have slot : State.slot? { s with
      req :=
        { credits := s.req.credits - 1, slots := s.req.slots.set k (some x), relay := s.req.relay ++ [k],
          hold := s.req.hold } } k = some x := by
    rw [State.slot?_eq, RequestUnit.slot?_set inside, if_pos rfl]
  refine ⟨fun notHeld => congrArg Host.Outcome.next ?_, fun empty held room => congrArg Host.Outcome.next ?_⟩
  · unfold State.accept State.testIfNewHead
    split
    · rfl
    next newHead =>
      have empty : s.req.relay = [] := by
        cases relay : s.req.relay with
        | nil => rfl
        | cons j rest => simp [relay] at newHead
      refine State.headTested_of_not fun j rest relay held => ?_
      rw [empty] at relay
      cases relay
      rw [State.held_iff_meetsHold slot] at held
      rw [← Bool.not_eq_true, RequestUnit.holdHasRoom_iff]
      exact fun room => notHeld ⟨empty, held, room⟩
  · unfold State.accept State.testIfNewHead
    rw [if_neg (by rw [empty]; exact nofun), State.headTested_of_last (k := k) (by rw [empty]; rfl)
      ((State.held_iff_meetsHold slot).mpr held) ((RequestUnit.holdHasRoom_iff _).mpr room), State.moveToHold]
    dsimp only
    rw [modify_eq_set (x := x) slot, List.set_set]

/-! ### Steering (R74, R75) -/

/-- Settles O12: each branch of `Context.steer`. -/
theorem steeringByQuadAndLock : Obligations.SteeringByQuadAndLock := by
  refine ⟨fun m p q lock copied => ?_, fun m p lock => ?_, fun m p q lock kind ahead => ?_, fun m q kind => ?_,
    fun c l q kind other => ?_⟩
  · simp [Context.steer, copied]
  · simp [Context.steer]
  · have notCopied : ¬q < p := by omega
    have notHeld : ¬(q = p ∧ lock.isSome = true ∧ kind = .write) := by
      rintro ⟨rfl, locked, -⟩
      obtain beyond | ⟨-, none⟩ := ahead
      · omega
      · rw [none] at locked
        cases locked
    simp [Context.steer, notCopied, notHeld]
  · simp [Context.steer]
  · cases c with
    | idle => rfl
    | copying m p lock => exact if_pos fun same => other (congrArg some same)
    | finishing m => exact if_pos fun same => other (congrArg some same)

/-! ### Translation (R6) -/

/-- Settles O13: `translate_of_serves` and `translate_of_none`. -/
theorem translationOrder : Obligations.TranslationOrder := by
  intro s l nodup
  have one := serves_nodup_iff.mp nodup
  refine ⟨fun k _ pending soft => ?_, fun _ k _ slot hard => ?_, fun unserved => ?_⟩
  · exact translate_of_serves one (by rw [serves, soft]; rfl)
  · exact translate_of_serves one (by rw [serves, hard]; rfl)
  · exact translate_of_none fun k hk => unserved _ (entryAt_mem (serves_lt hk)) hk

end Sys2Proof.Machine
end

section
/-! Grants (R34 to R36, R50 to R57, R78, R80, R126): who wins, which tag a request takes, and what each grant's next state is. -/

namespace Sys2Proof.Machine

/-! ### The tag assigned next (R52) -/

/-- The search from the pointer finds the first free tag, if it looks far enough. -/
theorem freeTagFrom_of_first {out : List (Tag × OutEntry)} {t : Tag} (free : t ∉ out.map Prod.fst) {n : Nat} {pointer : Tag}
    (taken : ∀ i < (t - pointer).toNat, pointer + BitVec.ofNat 8 i ∈ out.map Prod.fst) (far : (t - pointer).toNat < n) :
    freeTagFrom out n pointer = some t := by
  induction n generalizing pointer with
  | zero => omega
  | succ n ih =>
    unfold freeTagFrom
    by_cases here : t = pointer
    · subst here
      rw [if_neg (by rw [tagHeld_eq_false.mpr free]; decide)]
    · have ahead : 0 < (t - pointer).toNat := by
        refine Nat.pos_of_ne_zero fun zero => here ?_
        have : t - pointer = 0#8 := BitVec.eq_of_toNat_eq zero
        have := congrArg (· + pointer) this
        simpa using this
      have rest : (t - (pointer + 1#8)).toNat + 1 = (t - pointer).toNat := by bv_omega
      have held : tagHeld out pointer = true := by
        rw [← Bool.not_eq_false, tagHeld_eq_false, not_not]
        simpa using taken 0 ahead
      rw [if_pos held]
      refine ih (fun i hi => ?_) (by omega)
      have := taken (i + 1) (by omega)
      rwa [Nat.add_comm i, BitVec.ofNat_add, ← BitVec.add_assoc] at this

theorem Arbiter.nextFree_of_first {a : Arbiter} {t : Tag}
    (h : FirstFreeTag (a.outstanding.map Prod.fst) a.nextTag t) : a.nextFree = some t :=
  freeTagFrom_of_first h.1 h.2 (t - a.nextTag).isLt

theorem Arbiter.servable_iff {a : Arbiter} {n : Nat} :
    a.servable n = true ↔ n ≤ a.credits ∧ n ≤ 256 - a.outstanding.length := by
  rw [Arbiter.servable, Bool.and_eq_true, decide_eq_true_iff, decide_eq_true_iff]
  rfl

theorem Arbiter.servable_one {a : Arbiter} (credit : 1 ≤ a.credits) (tag : a.outstanding.length < 256) :
    a.servable 1 = true :=
  Arbiter.servable_iff.mpr ⟨credit, by omega⟩

/-! ### The winner (R54, R55) -/

section Winner

variable {s : State}

/-- No background offer comes before the relay (R55). -/
def State.relayFirst (s : State) : Prop := s.arb.bgWait < s.params.bgShare ∨ s.backgroundOffers = false

theorem State.not_backgroundFirst (h : s.relayFirst) : ¬(s.params.bgShare ≤ s.arb.bgWait ∧ s.backgroundServable = true) := by
  rintro ⟨share, servable⟩
  obtain below | none := h
  · omega
  · rw [State.backgroundServable, none] at servable
    cases servable

theorem State.winner_relay (first : s.relayFirst) (servable : s.relayServable = true) : s.winner = some .relay := by
  rw [State.winner, if_neg (State.not_backgroundFirst first), if_pos servable]

theorem State.winner_background (servable : s.backgroundServable = true)
    (h : s.params.bgShare ≤ s.arb.bgWait ∨ s.relayServable = false) : s.winner = some s.backgroundWinner := by
  unfold State.winner
  split
  · rfl
  next notFirst =>
    obtain share | none := h
    · exact absurd ⟨share, servable⟩ notFirst
    · rw [none]
      rfl

/-- A head that is not stalled is offered; it is servable if the credits and tags it needs are there (R54). -/
theorem State.relayServable_iff {k : Nat} {rest : List Nat} {x : Slot} (relay : s.req.relay = k :: rest)
    (slot : s.slot? k = some x) : s.relayServable = true ↔ s.stalled = false ∧ s.arb.servable (s.relayNeed x) = true := by
  unfold State.relayServable State.relayOffer
  cases s.stalled with
  | true => simp
  | false => simp [relay, slot]

theorem State.relayServable_of_empty (relay : s.req.relay = []) : s.relayServable = false := by
  simp [State.relayServable, State.relayOffer, relay]

theorem State.stalled_of_head {k : Nat} {rest : List Nat} (relay : s.req.relay = k :: rest) :
    s.stalled = (s.held k && !s.req.holdHasRoom) := by
  rw [State.stalled, relay]

theorem State.headHeld_of_head {k : Nat} {rest : List Nat} (relay : s.req.relay = k :: rest) : s.headHeld = s.held k := by
  rw [State.headHeld, relay]

/-- A slot that meets the hold test is not issued to two blocks (R31, R74). -/
theorem State.relayNeed_of_locked {x : Slot} (h : s.mig.context.locks x.l x.q = true) : s.relayNeed x = 1 := by
  unfold Context.locks at h
  split at h
  next m p lock context =>
    simp only [Bool.and_eq_true, beq_iff_eq] at h
    obtain ⟨block, rfl⟩ := h
    unfold State.relayNeed Context.steer
    rw [context]
    dsimp only
    rw [if_neg (not_not_intro block), if_neg (Nat.lt_irrefl _)]
    cases x.kind <;> simp
  · cases h

end Winner

/-! ### The hold test made again (R31, R57) -/

/-- The hold test of one head more changes nothing, when the heads looked at fill the hold buffer. -/
theorem testHead_succ {n : Nat} {s : State} (h : 4 ≤ n + s.req.hold.length) : testHead (n + 1) s = testHead n s := by
  induction n generalizing s with
  | zero =>
    unfold testHead
    split
    · refine if_neg ?_
      rw [Bool.and_eq_true, RequestUnit.holdHasRoom_iff]
      omega
    · rfl
  | succ n ih =>
    rw [testHead.eq_def (n + 1 + 1), testHead.eq_def (n + 1)]
    dsimp only
    split
    next k rest _ =>
      split
      · refine ih ?_
        simp only [State.moveToHold, List.length_append, List.length_singleton]
        omega
      · rfl
    · rfl

/-- A head that is held and finds room goes to the hold buffer; the test then goes on as if made from there. -/
theorem State.headTested_of_held {s : State} {k : Nat} {rest : List Nat} (relay : s.req.relay = k :: rest)
    (held : s.held k = true) (room : s.req.holdHasRoom = true) : s.headTested = (s.moveToHold k rest).headTested := by
  change testHead (3 + 1) s = testHead (3 + 1) (s.moveToHold k rest)
  rw [testHead_succ (n := 3) (s := s.moveToHold k rest)]
  · rw [testHead, relay]
    dsimp only
    rw [held, room]
    rfl
  · simp only [State.moveToHold, List.length_append, List.length_singleton]
    omega

/-- With no background offer first, the arbiter chooses among the offers that stand once the head has been tested (R57). -/
theorem State.takeGrant_eq {s : State} (first : s.relayFirst) (servable : s.arb.servable 1 = true) :
    s.takeGrant =
      match s.headTested.winner with
      | none => s.headTested
      | some w => s.headTested.grant w := by
  have untested : s.headTested = s → s.headHeld = false ∨ s.relayServable = false → s.takeGrant =
      match s.headTested.winner with
      | none => s.headTested
      | some w => s.headTested.grant w := fun same h => by
    rw [same]
    unfold State.takeGrant
    cases hw : s.winner with
    | none => rfl
    | some w =>
      cases w with
      | relay =>
        obtain notHeld | none := h
        · dsimp only
          rw [notHeld]
          rfl
        · rw [State.winner, if_neg (State.not_backgroundFirst first), none, if_neg Bool.false_ne_true] at hw
          unfold State.backgroundWinner at hw
          split at hw
          · split at hw <;> cases hw
          · cases hw
      | copy | patrol => rfl
  cases relay : s.req.relay with
  | nil =>
    refine untested (State.headTested_of_not fun k rest h => ?_) (.inr (State.relayServable_of_empty relay))
    rw [relay] at h
    cases h
  | cons k rest =>
    cases held : s.held k with
    | false =>
      refine untested (State.headTested_of_not fun j rest' h => ?_) (.inl ((State.headHeld_of_head relay).trans held))
      rw [relay] at h
      cases h
      rw [held]
      exact nofun
    | true =>
      obtain ⟨x, slot, test⟩ : ∃ x, s.slot? k = some x ∧ s.holdTest x = true := by
        unfold State.held at held
        split at held
        next x slot => exact ⟨x, slot, held⟩
        · cases held
      cases room : s.req.holdHasRoom with
      | false =>
        refine untested (State.headTested_of_not fun j rest' _ _ => room) (.inr ?_)
        rw [← Bool.not_eq_true, State.relayServable_iff relay slot, State.stalled_of_head relay, held, room]
        exact fun h => Bool.false_ne_true h.1.symm
      | true =>
        rw [State.holdTest, Bool.and_eq_true] at test
        have won : s.winner = some .relay := State.winner_relay first ((State.relayServable_iff relay slot).mpr
          ⟨by rw [State.stalled_of_head relay, held, room]; rfl, by rwa [State.relayNeed_of_locked test.1]⟩)
        unfold State.takeGrant
        rw [won]
        dsimp only
        rw [State.headHeld_of_head relay, held]
        rfl

theorem exec_issueGrant {s : State} (high : s.pwrOk = true) (link : s.arb.linkUp = true) :
    exec .issueGrant s = .next s.takeGrant := by
  refine congrArg Host.Outcome.next ?_
  rw [issueGrantEffect, powered_of_high high, if_pos link]

/-! ### Relay grants (R34 to R36) -/

/-- A head that wins and is not held is issued; then the next head is tested (R31, R55). -/
theorem State.takeGrant_relay {s : State} {k : Nat} {rest : List Nat} {x : Slot} (relay : s.req.relay = k :: rest)
    (slot : s.slot? k = some x) (notHeld : ¬s.meetsHold x.l x.q x.kind) (first : s.relayFirst)
    (servable : s.arb.servable (s.relayNeed x) = true) :
    s.takeGrant = ((s.issue k x).setWait s.waitAfterRelay).headTested := by
  have free : s.held k = false := by
    rw [← Bool.not_eq_true]
    exact mt (State.held_iff_meetsHold slot).mp notHeld
  have won : s.winner = some .relay := State.winner_relay first ((State.relayServable_iff relay slot).mpr
    ⟨by rw [State.stalled_of_head relay, free]; rfl, servable⟩)
  unfold State.takeGrant
  rw [won]
  dsimp only
  rw [State.headHeld_of_head relay, free, if_neg Bool.false_ne_true, State.grantRelay, relay]
  dsimp only
  rw [slot]

/-- A slot leaves the front of the relay queue. -/
theorem filter_head {k : Nat} {rest : List Nat} (h : k ∉ rest) : (k :: rest).filter (· != k) = rest := by
  rw [List.filter_cons_of_neg (by simp)]
  exact List.filter_eq_self.mpr fun j hj => by
    rw [bne_iff_ne]
    rintro rfl
    exact h hj

/-- A state differs from its hold test in the request unit alone. -/
theorem State.headTested_rest (v : State) : { v.headTested with req := v.req } = v := v.headTested_holdTested.2

theorem lineOf_eq (a : Addr) : lineOf a = a.toNat % 256 / 64 := by
  rw [lineOf, offsetOf, Nat.mod_mod_of_dvd _ (by decide)]

theorem Slot.entryTo_eq (x : Slot) (k p : Nat) :
    x.entryTo k p =
      { owner := .request k, block := p, quad := x.q, firstLine := x.addr.toNat % 256 / 64, size := x.size,
        dir := x.kind } := by
  rw [Slot.entryTo, lineOf_eq]

/-- Settles O15: `State.takeGrant_relay`, with the issue to one block. -/
theorem relayIssuesOneRequest : Obligations.RelayIssuesOneRequest := by
  intro k rest x p t s high link relay notInRest tracked notHeld first credit tags freeTag steered
  have slot : s.slot? k = some x := State.slot?_eq_some.mpr tracked
  have next := Arbiter.nextFree_of_first freeTag
  have issued : s.issue k x = (s.place t (x.entryTo k p) x.beats).activate k x (newHalf p t) none := by
    unfold State.issue
    obtain ⟨steer, rfl⟩ | steer | ⟨sp, steer, rfl⟩ := steered <;> rw [steer] <;> dsimp only <;>
      rw [State.issueSingle, next]
  have need : s.relayNeed x = 1 := by
    unfold State.relayNeed
    obtain ⟨steer, -⟩ | steer | ⟨sp, steer, -⟩ := steered <;> rw [steer]
  refine ⟨_, (exec_issueGrant high link).trans (congrArg Host.Outcome.next (State.takeGrant_relay relay slot notHeld first
    (by rw [need]; exact Arbiter.servable_one credit tags))), ?_⟩
  rw [issued]
  generalize hv : State.setWait _ s.waitAfterRelay = v
  have arb : v.arb = { (s.arb.place t (x.entryTo k p)) with bgWait := s.waitAfterRelay } := by rw [← hv]; rfl
  have req : v.req = { s.req with
      slots := s.req.slots.set k
        (some { x with
          state := .active, first := some { block := p, tag := t, answer := none }, second := none })
      relay := rest } := by
    rw [← hv, ← filter_head notInRest, ← relay]
    rfl
  have down : v.downSent = s.downSent ++ [requestMessage t (x.entryTo k p) x.beats] := by rw [← hv]; rfl
  refine ⟨?_, fun read => ?_, fun lines write payload => ?_, ?_, ?_⟩
  · rw [State.headTested_arb, arb, Slot.entryTo_eq, Arbiter.place]
    dsimp only
    rw [link]
    rfl
  · rw [State.headTested_downSent, down, Slot.entryTo_eq, read]
    rfl
  · rw [State.headTested_downSent, down, Slot.entryTo_eq, write, Slot.beats, payload]
    rfl
  · rw [← req]
    have context : v.mig.context = s.mig.context := by rw [← hv]; rfl
    rw [← context]
    exact v.headTested_holdTested.1
  · have rest := v.headTested_rest
    calc ({ v.headTested with req := s.req, arb := s.arb, downSent := s.downSent } : State)
        = { { v.headTested with req := v.req } with req := s.req, arb := s.arb, downSent := s.downSent } := rfl
      _ = { v with req := s.req, arb := s.arb, downSent := s.downSent } := by rw [rest]
      _ = s := by rw [← hv]; rfl

/-- Settles O16: `State.takeGrant_relay`, with the issue to two blocks. -/
theorem dualWriteIssuesTwoRequests : Obligations.DualWriteIssuesTwoRequests := by
  intro k rest x lines m p lock t1 t2 s high link relay notInRest tracked write payload context block copied first credits
    tags freeTag1 freeTag2
  have slot : s.slot? k = some x := State.slot?_eq_some.mpr tracked
  have next1 := Arbiter.nextFree_of_first freeTag1
  have next2 : (s.place t1 (x.entryTo k m.source) x.beats).arb.nextFree = some t2 := by
    refine Arbiter.nextFree_of_first ?_
    change FirstFreeTag ((s.arb.outstanding ++ [_]).map Prod.fst) _ _
    rw [List.map_append]
    exact freeTag2
  have steer : s.mig.context.steer x.l x.q x.kind = .dual m.source m.target := by
    simp [context, Context.steer, block, copied, write]
  have notHeld : ¬s.meetsHold x.l x.q x.kind := by
    rintro ⟨locks, -⟩
    rw [context] at locks
    cases lock with
    | none => cases locks
    | some lock =>
      simp only [Context.locks, Bool.and_eq_true, beq_iff_eq] at locks
      omega
  have issued : s.issue k x =
      ((s.place t1 (x.entryTo k m.source) x.beats).place t2 (x.entryTo k (s.limit + m.target)) x.beats).activate k x
        (newHalf m.source t1) (some (newHalf (s.limit + m.target) t2)) := by
    rw [State.issue, steer]
    dsimp only
    rw [State.issueDual, next1]
    dsimp only
    rw [next2]
  have need : s.relayNeed x = 2 := by rw [State.relayNeed, steer]
  refine ⟨_, (exec_issueGrant high link).trans (congrArg Host.Outcome.next (State.takeGrant_relay relay slot notHeld first
    (by rw [need]; exact Arbiter.servable_iff.mpr ⟨credits, by omega⟩))), ?_⟩
  rw [issued]
  generalize hv : State.setWait _ s.waitAfterRelay = v
  have arb : v.arb = { ((s.arb.place t1 (x.entryTo k m.source)).place t2 (x.entryTo k (s.limit + m.target))) with
      bgWait := s.waitAfterRelay } := by rw [← hv]; rfl
  have req : v.req = { s.req with
      slots := s.req.slots.set k
        (some { x with
          state := .active, first := some { block := m.source, tag := t1, answer := none },
          second := some { block := s.limit + m.target, tag := t2, answer := none } })
      relay := rest } := by
    rw [← hv, ← filter_head notInRest, ← relay]
    rfl
  have down : v.downSent = s.downSent ++ [requestMessage t1 (x.entryTo k m.source) x.beats] ++
      [requestMessage t2 (x.entryTo k (s.limit + m.target)) x.beats] := by rw [← hv]; rfl
  refine ⟨?_, ?_, ?_, ?_⟩
  · rw [State.headTested_arb, arb, Slot.entryTo_eq, Slot.entryTo_eq, write, Arbiter.place, Arbiter.place]
    dsimp only
    rw [List.append_assoc, link]
    rfl
  · rw [State.headTested_downSent, down, Slot.entryTo_eq, Slot.entryTo_eq, write, Slot.beats, payload, List.append_assoc]
    rfl
  · rw [← req]
    have same : v.mig.context = s.mig.context := by rw [← hv]; rfl
    rw [← same]
    exact v.headTested_holdTested.1
  · have rest := v.headTested_rest
    calc ({ v.headTested with req := s.req, arb := s.arb, downSent := s.downSent } : State)
        = { { v.headTested with req := v.req } with req := s.req, arb := s.arb, downSent := s.downSent } := rfl
      _ = { v with req := s.req, arb := s.arb, downSent := s.downSent } := by rw [rest]
      _ = s := by rw [← hv]; rfl

/-! ### Background grants (R50, R78, R80, R126) -/

/-- A background offer wins where the share asks for it or the relay has nothing servable (R55). -/
theorem State.takeGrant_background {s : State} (servable : s.backgroundServable = true)
    (h : s.params.bgShare ≤ s.arb.bgWait ∨ s.relayServable = false) : s.takeGrant = s.grant s.backgroundWinner := by
  unfold State.takeGrant
  rw [State.winner_background servable h]
  unfold State.backgroundWinner
  cases s.mig.context.offersCopy <;> rfl

/-- The message of a background request names its quad (R50). -/
theorem requestMessage_background (t : Tag) (owner : Owner) (p q : Nat) (dir : Access) (beats : List WriteLine) :
    requestMessage t (backgroundEntry owner p q dir) beats =
      match dir with
      | .read => .read t 2#2 (BitVec.ofNat 34 (p * 16384 + q * 256))
      | .write => .write t 2#2 (BitVec.ofNat 34 (p * 16384 + q * 256)) beats := by
  cases dir <;> simp [requestMessage, backgroundEntry, physAddr, Size.code]

/-- A background request placed, the background wait count back at 0 (R50, R52, R55). -/
theorem State.place_background {s : State} (link : s.arb.linkUp = true) (t : Tag) (owner : Owner) (p q : Nat) (dir : Access)
    (beats : List WriteLine) :
    (s.place t (backgroundEntry owner p q dir) beats).setWait 0 =
      { s with
        arb :=
          { credits := s.arb.credits - 1
            outstanding :=
              s.arb.outstanding ++
                [(t, { owner := owner, block := p, quad := q, firstLine := 0, size := .four, dir := dir })]
            nextTag := t + 1#8, bgWait := 0, linkUp := true }
        downSent := s.downSent ++ [requestMessage t (backgroundEntry owner p q dir) beats] } := by
  rw [State.setWait, State.place, State.sendDown, Arbiter.place]
  dsimp only
  rw [link]
  rfl

/-- Settles O17: `State.takeGrant_background`, with the grant of each background offer. -/
theorem backgroundGrants : Obligations.BackgroundGrants := by
  intro t s high link credit tags freeTag chosen
  have next := Arbiter.nextFree_of_first freeTag
  have one := Arbiter.servable_one credit tags
  have wins : s.params.bgShare ≤ s.arb.bgWait ∨ s.relayServable = false := by
    refine chosen.imp_right fun h => ?_
    obtain empty | ⟨k, rest, x, b, sp, relay, slot, steer, scarce⟩ | ⟨k, rest, x, relay, slot, held, full⟩ := h
    · exact State.relayServable_of_empty empty
    · have need : s.relayNeed x = 2 := by rw [State.relayNeed, steer]
      rw [← Bool.not_eq_true, State.relayServable_iff relay (State.slot?_eq_some.mpr slot), need, Arbiter.servable_iff]
      rintro ⟨-, two, free⟩
      omega
    · have slot' := State.slot?_eq_some.mpr slot
      rw [← Bool.not_eq_true, State.relayServable_iff relay slot', State.stalled_of_head relay,
        (State.held_iff_meetsHold slot').mpr held]
      rintro ⟨room, -⟩
      rw [Bool.true_and, Bool.not_eq_false', RequestUnit.holdHasRoom_iff] at room
      omega
  have granted : s.backgroundOffers = true → exec .issueGrant s = .next (s.grant s.backgroundWinner) := fun offers => by
    rw [exec_issueGrant high link, State.takeGrant_background (by rw [State.backgroundServable, offers, one]; rfl) wins]
  refine ⟨fun m p context => ?_, fun m p lines context => ?_, fun b q none offered => ?_⟩
  · have offers : s.mig.context.offersCopy = true := by rw [context]; rfl
    rw [granted (by rw [State.backgroundOffers, offers]; rfl), State.backgroundWinner, if_pos offers, State.grant,
      State.grantCopy, next, context]
    change Host.Outcome.next (((s.place t (backgroundEntry .copy m.source p .read) []).setWait 0).setMig _) = _
    rw [State.place_background link, requestMessage_background]
    rfl
  · have offers : s.mig.context.offersCopy = true := by rw [context]; rfl
    rw [granted (by rw [State.backgroundOffers, offers]; rfl), State.backgroundWinner, if_pos offers, State.grant,
      State.grantCopy, next, context]
    change Host.Outcome.next (((s.place t (backgroundEntry .copy (s.limit + m.target) p .write) lines).setWait 0).setMig _) = _
    rw [State.place_background link, requestMessage_background]
    rfl
  · rw [granted (by rw [State.backgroundOffers, none, offered]; rfl), State.backgroundWinner,
      if_neg (by rw [none]; decide), State.grant, State.grantPatrol, next, offered]
    change Host.Outcome.next (((s.place t (backgroundEntry .patrol b q .read) []).setWait 0).setPatrol _) = _
    rw [State.place_background link, requestMessage_background]
    rfl

/-! ### No grant (R51, R54, R57) -/

/-- Without a downstream credit no offer is servable (R51, R54). -/
theorem State.winner_of_noCredit {s : State} (h : s.arb.credits = 0) : s.winner = none := by
  have unservable : ∀ n, 1 ≤ n → s.arb.servable n = false := fun n hn => by
    rw [← Bool.not_eq_true, Arbiter.servable_iff]
    omega
  have needs : ∀ x, 1 ≤ s.relayNeed x := fun x => by
    unfold State.relayNeed
    split <;> decide
  have background : s.backgroundServable = false := by
    rw [State.backgroundServable, unservable 1 le_rfl, Bool.and_false]
  have relay : s.relayServable = false := by
    unfold State.relayServable
    split
    · split
      next x _ => exact unservable _ (needs x)
      · rfl
    · rfl
  simp [State.winner, background, relay]

/-- Settles O18: `State.takeGrant_eq`, with the hold test made again from the hold buffer. -/
theorem noGrantTaken : Obligations.NoGrantTaken := by
  have moved : ∀ {s : State} {k : Nat} {rest : List Nat} {x : Slot}, s.slot? k = some x →
      s.moveToHold k rest = { s with
        req :=
          { s.req with
            slots := s.req.slots.set k (some { x with state := .held }), relay := rest, hold := s.req.hold ++ [k] } } :=
    fun slot => by rw [State.moveToHold, modify_eq_set slot]
  refine ⟨fun s none => ?_, fun s down => ?_,
    fun k x s high link relay tracked held room credit tags noOffer => ?_,
    fun k rest x s high link relay tracked held room credit tags first => ?_⟩
  · refine congrArg Host.Outcome.next ?_
    unfold issueGrantEffect powered
    dsimp only
    split
    · split
      · rw [State.takeGrant, State.winner_of_noCredit none]
      · rfl
    · rfl
  · refine congrArg Host.Outcome.next ?_
    unfold issueGrantEffect powered
    dsimp only
    rw [down, if_neg Bool.false_ne_true, ite_self]
  · have slot : s.slot? k = some x := State.slot?_eq_some.mpr tracked
    have tested := State.headTested_of_last relay ((State.held_iff_meetsHold slot).mpr held)
      ((RequestUnit.holdHasRoom_iff _).mpr room)
    have noWinner : (s.moveToHold k []).winner = none := by
      have background : (s.moveToHold k []).backgroundServable = false := by
        rw [State.backgroundServable, show (s.moveToHold k []).backgroundOffers = false from noOffer, Bool.false_and]
      simp [State.winner, background, State.relayServable_of_empty (s := s.moveToHold k []) rfl]
    rw [exec_issueGrant high link, State.takeGrant_eq (.inr noOffer) (Arbiter.servable_one credit tags), tested, noWinner,
      moved slot]
  · have slot : s.slot? k = some x := State.slot?_eq_some.mpr tracked
    have one := Arbiter.servable_one credit tags
    have tested := State.headTested_of_held relay ((State.held_iff_meetsHold slot).mpr held)
      ((RequestUnit.holdHasRoom_iff _).mpr room)
    rw [← moved slot, exec_issueGrant high link, exec_issueGrant (s := s.moveToHold k rest) high link,
      State.takeGrant_eq first one, State.takeGrant_eq (s := s.moveToHold k rest) first one, tested]

end Sys2Proof.Machine
end

section
/-! The responses of the downstream link: what an answered half leaves of its slot, and a status report taken before or after
the owner's handling. -/

namespace Sys2Proof.Machine

/-! ### The answer a response is taken as (R62, R198) -/

theorem answerOf_write_status {e : OutEntry} (write : e.dir = .write) (status : BitVec 2) (beats : List ReadBeat) :
    (answerOf e status beats).status = if status = 1#2 ∧ beats = [] then .done else .failed := by
  unfold answerOf
  rw [write]
  simp only []
  split <;> rfl

theorem answerOf_write_lines {e : OutEntry} (write : e.dir = .write) (status : BitVec 2) (beats : List ReadBeat) :
    (answerOf e status beats).lines = [] := by
  unfold answerOf
  rw [write]
  simp only []
  split <;> rfl

theorem ReadLine.beat_of_side {b : ReadBeat} (known : b.side ≠ 3#2) :
    ReadLine.beat
      { data := b.data
        status := if b.side = 0#2 then .ok else if b.side = 1#2 then .corrected else .uncorrectable } = b := by
  obtain ⟨data, side⟩ := b
  have codes : side = 0#2 ∨ side = 1#2 ∨ side = 2#2 ∨ side = 3#2 := by
    clear known
    revert side
    decide
  obtain rfl | rfl | rfl | rfl := codes
  · rfl
  · rfl
  · rfl
  · exact absurd rfl known

theorem answerOf_data {e : OutEntry} (read : e.dir = .read) {status : BitVec 2} {beats : List ReadBeat}
    (data : status = 0#2) (length : beats.length = e.size.lines) (known : ∀ b ∈ beats, b.side ≠ 3#2) :
    ∃ lines : List ReadLine, answerOf e status beats = .data lines ∧ lines.map ReadLine.beat = beats := by
  unfold answerOf
  rw [read]
  simp only []
  rw [if_pos ⟨data, length⟩, readLines_eq, if_pos known]
  refine ⟨_, rfl, ?_⟩
  rw [List.map_map]
  calc beats.map _ = beats.map id := List.map_congr_left fun b hb => ReadLine.beat_of_side (known b hb)
    _ = beats := List.map_id beats

theorem answerOf_read_failed {e : OutEntry} (read : e.dir = .read) {status : BitVec 2} {beats : List ReadBeat}
    (other : ¬(status = 0#2 ∧ beats.length = e.size.lines ∧ ∀ b ∈ beats, b.side ≠ 3#2)) :
    answerOf e status beats = .failed := by
  unfold answerOf
  rw [read]
  simp only []
  by_cases form : status = 0#2 ∧ beats.length = e.size.lines
  · rw [if_pos form, readLines_eq, if_neg fun known => other ⟨form.1, form.2, known⟩]
  · rw [if_neg form]

/-! ### The slot's handling (R37 to R39, R45) -/

theorem Slot.answer_first {x : Slot} {t : Tag} {h : Half} (other : x.answersSecond t = false) (first : x.first = some h)
    (a : Answer) :
    x.answer t a =
      { x with first := some { h with answer := some a.status }, merged := some (mergeAnswer x.merged a) } := by
  unfold Slot.answer
  rw [other, first]
  rfl

theorem Slot.answer_second {x : Slot} {t : Tag} {h : Half} (second : x.second = some h) (out : h.answer = none)
    (tag : h.tag = t) (a : Answer) :
    x.answer t a =
      { x with second := some { h with answer := some a.status }, merged := some (mergeAnswer x.merged a) } := by
  unfold Slot.answer
  rw [if_pos (Slot.answersSecond_iff.mpr ⟨h, second, out, tag⟩), second]
  rfl

theorem Slot.answersSecond_eq_false {x : Slot} {t : Tag} (h : ∀ g, x.second = some g → g.answer = none → g.tag ≠ t) :
    x.answersSecond t = false := by
  rw [← Bool.not_eq_true, Slot.answersSecond_iff]
  rintro ⟨g, second, out, tag⟩
  exact h g second out tag

theorem Slot.anyOutstanding_eq_false {x : Slot} (h : ∀ g, x.hasHalf g → g.answer ≠ none) : x.anyOutstanding = false := by
  rw [← Bool.not_eq_true, Slot.anyOutstanding_iff]
  rintro ⟨g, half, out⟩
  exact h g half out

section Handling
variable {s : State} {k : Nat} {x : Slot} {t : Tag} {e : OutEntry} {a : Answer}

theorem State.reportIfSecondFailed_first (other : x.answersSecond t = false) : s.reportIfSecondFailed x e t a = s := by
  unfold State.reportIfSecondFailed
  rw [if_neg fun h => by rw [other] at h; exact absurd h.1 Bool.false_ne_true]

theorem State.reportIfSecondFailed_second (second : x.answersSecond t = true) :
    s.reportIfSecondFailed x e t a =
      { s with mig := { s.mig with failures := s.mig.failures ++
          if a.status = .done then [] else [{ spare := e.block - s.limit, cause := .writeFail }] } } := by
  unfold State.reportIfSecondFailed
  cases h : a.status
  · rw [if_neg (fun c => by cases c.2), if_pos rfl, List.append_nil]
  · rw [if_pos ⟨second, rfl⟩, if_neg (by decide)]
    rfl

theorem requestResponse_kept {y : Slot} (slot : s.req.slots[k]? = some (some x)) (answer : x.answer t a = y)
    (more : y.anyOutstanding = true) :
    requestResponse k t e a s = (s.reportIfSecondFailed x e t a).setSlot k (some y) := by
  unfold requestResponse
  rw [State.slot?_eq_some.mpr slot]
  simp only [answer, if_pos more]

theorem requestResponse_answered {y : Slot} (slot : s.req.slots[k]? = some (some x)) (answer : x.answer t a = y)
    (last : y.anyOutstanding = false) (active : x.state = .active) :
    requestResponse k t e a s = ((s.reportIfSecondFailed x e t a).sendUp y.response).freeSlotCredit k := by
  unfold requestResponse
  rw [State.slot?_eq_some.mpr slot]
  simp only [answer, last, active, Bool.false_eq_true, if_false]

theorem requestResponse_late {y : Slot} (slot : s.req.slots[k]? = some (some x)) (answer : x.answer t a = y)
    (last : y.anyOutstanding = false) (orphan : x.state = .orphan) :
    requestResponse k t e a s =
      ((s.reportIfSecondFailed x e t a).freeSlotCredit k).hand .request (.lateResponse e.block) := by
  unfold requestResponse
  rw [State.slot?_eq_some.mpr slot]
  simp only [answer, last, orphan, Bool.false_eq_true, if_false]

end Handling

/-! ### The response of a held tag (R60, R61) -/

/-- A unit state with its status reports replaced. -/
def State.withReports (s : State) (rs : List StatusReport) : State := { s with watch := { s.watch with reports := rs } }

section Response
variable {s : State} {tag : Tag} {e : OutEntry} {status : BitVec 2} {beats : List ReadBeat}

theorem State.writeRemoved_of_read (read : e.dir = .read) (v : State) : v.writeRemoved e = v := by
  unfold State.writeRemoved
  rw [if_neg]
  rw [OutEntry.isRequestWrite_iff, read]
  rintro ⟨-, h⟩
  cases h

theorem exec_downstreamResponse (high : s.pwrOk = true) (link : s.arb.linkUp = true)
    (distinct : (s.arb.outstanding.map Prod.fst).Nodup) (held : (tag, e) ∈ s.arb.outstanding) (first : Bool) :
    exec (.downstreamResponse tag status beats first) s =
      .next ((((s.removeTag tag).reportStatuses e (answerOf e status beats) first).route tag e
        (answerOf e status beats)).writeRemoved e) := by
  simp only [exec, execDownstreamResponse, downstreamResponseEffect, powered, high, link, if_true,
    Arbiter.entry?_of_nodup distinct held]

/-- The response of a READ whose report waits: its owner handles it with the entry gone. -/
theorem exec_readResponse (high : s.pwrOk = true) (link : s.arb.linkUp = true)
    (distinct : (s.arb.outstanding.map Prod.fst).Nodup) (held : (tag, e) ∈ s.arb.outstanding) (read : e.dir = .read) :
    exec (.downstreamResponse tag status beats false) s =
      .next (((s.removeTag tag).makeReport (responseReport e status beats)).route tag e (answerOf e status beats)) := by
  rw [exec_downstreamResponse high link distinct held, State.writeRemoved_of_read read]
  simp only [State.reportStatuses, read, Bool.false_eq_true, if_false, reportOf_answerOf read]

theorem Arbiter.entry?_of_free {a : Arbiter} (free : tag ∉ a.outstanding.map Prod.fst) : a.entry? tag = none := by
  unfold Arbiter.entry?
  rw [Option.map_eq_none_iff, List.find?_eq_none]
  intro y hy found
  exact free (List.mem_map.mpr ⟨y, hy, by simpa using found⟩)

theorem exec_response_of_free (free : tag ∉ s.arb.outstanding.map Prod.fst) (first : Bool) :
    exec (.downstreamResponse tag status beats first) s = .next s := by
  simp only [exec, execDownstreamResponse, downstreamResponseEffect, powered, Arbiter.entry?_of_free free, ite_self]

end Response

/-! ### The waiting reports are read by STATUS_REPORT alone -/

section Reports
variable (s : State) (rs : List StatusReport)

theorem State.reportIfSecondFailed_withReports (x : Slot) (e : OutEntry) (t : Tag) (a : Answer) :
    (s.withReports rs).reportIfSecondFailed x e t a = (s.reportIfSecondFailed x e t a).withReports rs := by
  unfold State.reportIfSecondFailed
  split <;> rfl

theorem requestResponse_withReports (k : Nat) (t : Tag) (e : OutEntry) (a : Answer) :
    requestResponse k t e a (s.withReports rs) = (requestResponse k t e a s).withReports rs := by
  unfold requestResponse
  rw [show (s.withReports rs).slot? k = s.slot? k from rfl]
  split
  · rfl
  next x slot =>
    simp only [State.reportIfSecondFailed_withReports]
    split
    · rfl
    · split <;> rfl

theorem State.freeSuspect_withReports (p : Nat) : (s.withReports rs).freeSuspect p = (s.freeSuspect p).withReports rs := by
  unfold State.freeSuspect
  rw [show (s.withReports rs).watch.suspects = s.watch.suspects from rfl]
  split <;> rfl

theorem State.commitMove_withReports (m : Move) : (s.withReports rs).commitMove m = (s.commitMove m).withReports rs := by
  unfold State.commitMove
  rw [show (s.withReports rs).limit = s.limit from rfl, show (s.withReports rs).table = s.table from rfl]
  generalize commitTable s.limit s.table m = table
  rw [show { s.withReports rs with table := table } = State.withReports { s with table := table } rs from rfl,
    State.freeSuspect_withReports]
  rfl

theorem State.tryCommit_withReports : (s.withReports rs).tryCommit = s.tryCommit.withReports rs := by
  unfold State.tryCommit
  rw [show (s.withReports rs).mig = s.mig from rfl]
  split
  next m context =>
    rw [show (s.withReports rs).writeToBlock m.source = s.writeToBlock m.source from rfl]
    split
    · rfl
    · exact s.commitMove_withReports rs m
  · rfl

theorem State.retryDecision_withReports (r : RetireRequest) :
    (s.withReports rs).retryDecision r = (s.retryDecision r).withReports rs := by
  unfold State.retryDecision
  rw [show (s.withReports rs).params = s.params from rfl]
  split <;> rfl

theorem State.releaseLock_withReports (lock : Option Lock) :
    (s.withReports rs).releaseLock lock = (s.releaseLock lock).withReports rs := by
  unfold State.releaseLock
  split <;> rfl

theorem State.failTarget_withReports (m : Move) (lock : Option Lock) (cause : TargetCause) (firing : Option Nat) :
    (s.withReports rs).failTarget m lock cause firing = (s.failTarget m lock cause firing).withReports rs := by
  unfold State.failTarget
  rw [State.releaseLock_withReports]
  exact congrArg State.toIdle (State.retryDecision_withReports
    (((s.releaseLock lock).retireTarget m.target).hand .migration (.targetBad m.req.l m.target cause) none firing) rs _)

theorem State.handPoison_withReports (l p source : Nat) (buffer : List WriteLine) :
    (s.withReports rs).handPoison l p source buffer = (s.handPoison l p source buffer).withReports rs := by
  unfold State.handPoison
  generalize buffer.zipIdx = lines
  induction lines generalizing s with
  | nil => rfl
  | cons x xs ih =>
    rw [List.foldl_cons, List.foldl_cons]
    cases x.1.poison
    · exact ih s
    · exact ih (s.hand .migration (.copyPoison l (4 * p + x.2) source))

theorem copyResponse_withReports (t : Tag) (a : Answer) :
    copyResponse t a (s.withReports rs) = (copyResponse t a s).withReports rs := by
  unfold copyResponse
  rw [show (s.withReports rs).mig = s.mig from rfl]
  split
  next m p c context =>
    split
    · unfold State.copyRead
      rw [State.handPoison_withReports]
      rfl
    · rfl
  next m p b c context =>
    split
    · split
      · exact s.failTarget_withReports rs ..
      · unfold State.copyWritten
        split
        · rfl
        · exact State.tryCommit_withReports (State.returnHeld (s.setMig { s.mig with context := .finishing m })) rs
    · rfl
  · rfl

theorem State.patrolRetire_withReports (k : Nat) :
    (s.withReports rs).patrolRetire k = (s.patrolRetire k).withReports rs := by
  unfold State.patrolRetire State.retireIfFree
  rw [show (s.withReports rs).table = s.table from rfl]
  cases entryAt s.table k <;> rfl

theorem patrolResponse_withReports (t : Tag) (a : Answer) :
    patrolResponse t a (s.withReports rs) = (patrolResponse t a s).withReports rs := by
  unfold patrolResponse
  rw [show (s.withReports rs).patrol = s.patrol from rfl]
  split
  · split
    · rw [show (s.withReports rs).limit = s.limit from rfl]
      split
      · rw [State.patrolRetire_withReports]
        rfl
      · rfl
    · rfl
  · rfl

/-- No owner reads or writes the waiting reports. -/
theorem State.route_withReports (t : Tag) (e : OutEntry) (a : Answer) :
    (s.withReports rs).route t e a = (s.route t e a).withReports rs := by
  unfold State.route
  split
  · exact requestResponse_withReports s rs ..
  · exact copyResponse_withReports s rs ..
  · exact patrolResponse_withReports s rs ..

end Reports

end Sys2Proof.Machine
end

section
/-! The answers of the request path: reads, writes, dual writes and the answers after a timeout (R37 to R39, R45, R61). -/

namespace Sys2Proof.Machine

/-! ### Taking a report does not read the outstanding downstream table -/

section Removal
variable (s : State) (t : Tag)

theorem State.enqueue_removeTag (l p : Nat) :
    (s.removeTag t).enqueue l p = ((s.enqueue l p).1, (s.enqueue l p).2.removeTag t) := by
  unfold State.enqueue
  rw [show (s.removeTag t).mig = s.mig from rfl]
  split
  · rfl
  · split <;> rfl

theorem State.fireEnqueue_removeTag (c : LimitClass) (i l : Nat) (e : Suspect) :
    (s.removeTag t).fireEnqueue c i l e = (s.fireEnqueue c i l e).removeTag t := by
  unfold State.fireEnqueue
  rw [State.enqueue_removeTag]
  rfl

theorem State.fireFreeSpare_removeTag (i k n : Nat) (e : Suspect) :
    (s.removeTag t).fireFreeSpare i k n e = (s.fireFreeSpare i k n e).removeTag t := by
  unfold State.fireFreeSpare State.retireIfFree
  rw [show (s.removeTag t).table = s.table from rfl]
  cases entryAt s.table k with
  | free | reserved | retired => rfl
  | soft | hard =>
    simp only [State.enqueue_removeTag]
    split <;> rfl

theorem State.fireRetire_removeTag (bc : BlockClass) (c : LimitClass) (i : Nat) (e : Suspect) :
    (s.removeTag t).fireRetire bc c i e = (s.fireRetire bc c i e).removeTag t := by
  unfold State.fireRetire
  cases bc with
  | homeInUse | servingSpare => exact s.fireEnqueue_removeTag t ..
  | freeSpare k => exact State.fireFreeSpare_removeTag ((s.setSuspect i (e.setFired c)).handFiring c e) t ..
  | migrationTarget | homeRemapped | retiredSpare => rfl

theorem State.countItem_removeTag (bc : BlockClass) (i : Nat) (st : ItemStatus) :
    (s.removeTag t).countItem bc i st = (s.countItem bc i st).removeTag t := by
  unfold State.countItem
  rw [show (s.removeTag t).suspect? i = s.suspect? i from rfl]
  split
  next c e =>
    rw [show (s.removeTag t).params = s.params from rfl, show (s.removeTag t).clock = s.clock from rfl]
    dsimp only
    split
    · unfold State.fire
      rw [show (s.removeTag t).params = s.params from rfl]
      split
      · rfl
      · rfl
      · rfl
      · exact s.fireRetire_removeTag t ..
    · rfl
  · rfl

theorem State.countItems_removeTag (bc : BlockClass) (i : Nat) (items : List (Nat × ItemStatus)) :
    items.foldl (fun u x => u.countItem bc i x.2) (s.removeTag t) =
      (items.foldl (fun u x => u.countItem bc i x.2) s).removeTag t := by
  induction items generalizing s with
  | nil => rfl
  | cons x xs ih =>
    rw [List.foldl_cons, List.foldl_cons, State.countItem_removeTag]
    exact ih _

/-- A status report is taken alike before and after the entry of a tag leaves the table. -/
theorem State.takeReport_removeTag (r : StatusReport) : (s.removeTag t).takeReport r = (s.takeReport r).removeTag t := by
  unfold State.takeReport
  rw [show (s.removeTag t).classify r.block = s.classify r.block from rfl, show (s.removeTag t).watch = s.watch from rfl,
    show (s.removeTag t).clock = s.clock from rfl]
  split
  · rfl
  · simp only []
    split
    · rfl
    · split
      · exact State.countItems_removeTag (s.setSuspect _ _) t ..
      · split <;> rfl

end Removal

/-! ### Taking a report leaves the waiting ones -/

section Waiting
variable (s : State)

theorem State.enqueue_reports (l p : Nat) : (s.enqueue l p).2.watch.reports = s.watch.reports :=
  congrArg WatchUnit.reports (s.enqueue_watch l p).1

theorem State.fireFreeSpare_reports (i k n : Nat) (e : Suspect) :
    (s.fireFreeSpare i k n e).watch.reports = s.watch.reports := by
  unfold State.fireFreeSpare State.retireIfFree
  cases entryAt s.table k with
  | free | reserved | retired => rfl
  | soft l | hard l =>
    simp only []
    split
    · rfl
    · exact s.enqueue_reports l e.block

theorem State.fireRetire_reports (bc : BlockClass) (c : LimitClass) (i : Nat) (e : Suspect) :
    (s.fireRetire bc c i e).watch.reports = s.watch.reports := by
  unfold State.fireRetire
  cases bc with
  | homeInUse l | servingSpare _ l => exact s.enqueue_reports l (e.setFired c).block
  | freeSpare k => exact State.fireFreeSpare_reports ((s.setSuspect i (e.setFired c)).handFiring c e) ..
  | migrationTarget | homeRemapped | retiredSpare => rfl

theorem State.countItem_reports (bc : BlockClass) (i : Nat) (st : ItemStatus) :
    (s.countItem bc i st).watch.reports = s.watch.reports := by
  unfold State.countItem
  split
  · dsimp only
    split
    · unfold State.fire
      split
      · rfl
      · rfl
      · rfl
      · exact s.fireRetire_reports ..
    · rfl
  · rfl

theorem State.countItems_reports (bc : BlockClass) (i : Nat) (items : List (Nat × ItemStatus)) :
    (items.foldl (fun u x => u.countItem bc i x.2) s).watch.reports = s.watch.reports := by
  induction items generalizing s with
  | nil => rfl
  | cons x xs ih => exact (ih _).trans (s.countItem_reports bc i x.2)

theorem State.takeReport_reports (r : StatusReport) : (s.takeReport r).watch.reports = s.watch.reports := by
  unfold State.takeReport
  split
  · rfl
  · simp only []
    split
    · rfl
    · split
      · exact State.countItems_reports (s.setSuspect _ _) ..
      · split <;> rfl

/-- A report made and taken at once is taken with none made. -/
theorem exec_statusReport_last {s : State} (high : s.pwrOk = true) (r : StatusReport) :
    exec (.statusReport s.watch.reports.length) (s.makeReport r) = .next (s.takeReport r) := by
  have found : (s.makeReport r).watch.reports[s.watch.reports.length]? = some r := by simp
  have gone : (s.makeReport r).watch.reports.eraseIdx s.watch.reports.length = s.watch.reports := by
    simp [List.eraseIdx_append_of_length_le]
  have back : { s.makeReport r with watch := { (s.makeReport r).watch with reports := s.watch.reports } } = s := rfl
  simp only [exec, execStatusReport, statusReportEffect, powered, if_pos (show (s.makeReport r).pwrOk = true from high), found]
  rw [gone, back]

end Waiting

/-- The report of a READ response taken first: the outcome of the report taken alone and the response after it, with the report
it makes left out (R61). -/
theorem readResponse_reportFirst {tag : Tag} {status : BitVec 2} {beats : List ReadBeat} {e : OutEntry} {s : State}
    (high : s.pwrOk = true) (link : s.arb.linkUp = true) (distinct : (s.arb.outstanding.map Prod.fst).Nodup)
    (held : (tag, e) ∈ s.arb.outstanding) (read : e.dir = .read) :
    ∃ u v : State,
      exec (.statusReport s.watch.reports.length) (s.makeReport (reportOf e (answerOf e status beats))) = .next u ∧
        exec (.downstreamResponse tag status beats false) u = .next v ∧
        exec (.downstreamResponse tag status beats true) s =
          .next { v with watch := { v.watch with reports := s.watch.reports } } := by
  generalize answer : answerOf e status beats = a
  have arb := s.takeReport_arb (reportOf e a)
  refine ⟨_, _, exec_statusReport_last high _, exec_downstreamResponse ((s.takeReport_pwrOk _).trans high) (by rw [arb]; exact link)
    (by rw [arb]; exact distinct) (by rw [arb]; exact held) false, ?_⟩
  rw [exec_downstreamResponse high link distinct held, State.writeRemoved_of_read read, State.writeRemoved_of_read read, answer]
  simp only [State.reportStatuses, read, Bool.false_eq_true, if_false, if_true, State.takeReport_removeTag]
  generalize taken : (s.takeReport (reportOf e a)).removeTag tag = u
  have reports : u.watch.reports = s.watch.reports := by
    rw [← taken]; exact s.takeReport_reports _
  have made : u.makeReport (reportOf e a) = u.withReports (s.watch.reports ++ [reportOf e a]) := by
    rw [← reports]; rfl
  rw [made, State.route_withReports]
  have same : u.withReports s.watch.reports = u := by rw [← reports]; rfl
  have := State.route_withReports u s.watch.reports tag e a
  rw [same] at this
  exact congrArg _ this

theorem writeResponse_order {tag : Tag} {status : BitVec 2} {beats : List ReadBeat} {e : OutEntry} {s : State}
    (high : s.pwrOk = true) (link : s.arb.linkUp = true) (distinct : (s.arb.outstanding.map Prod.fst).Nodup)
    (held : (tag, e) ∈ s.arb.outstanding) (write : e.dir = .write) :
    exec (.downstreamResponse tag status beats true) s = exec (.downstreamResponse tag status beats false) s := by
  rw [exec_downstreamResponse high link distinct held, exec_downstreamResponse high link distinct held]
  simp only [State.reportStatuses, write]

/-! ### What a handled answer leaves (R37 to R39) -/

theorem State.sendUp_freeSlotCredit (s : State) (m : UpMessage) (k : Nat) :
    (s.sendUp m).freeSlotCredit k =
      { s with
        req := { s.req with credits := s.req.credits + 1, slots := s.req.slots.set k none }
        upSent := s.upSent ++ [m, .credit 1#8] } := by
  simp only [State.freeSlotCredit, State.sendUp, List.append_assoc, List.cons_append, List.nil_append]

@[simp] theorem Slot.answer_tag (x : Slot) (t : Tag) (a : Answer) : (x.answer t a).tag = x.tag := by
  unfold Slot.answer; split <;> rfl

@[simp] theorem Slot.answer_kind (x : Slot) (t : Tag) (a : Answer) : (x.answer t a).kind = x.kind := by
  unfold Slot.answer; split <;> rfl

@[simp] theorem Slot.answer_size (x : Slot) (t : Tag) (a : Answer) : (x.answer t a).size = x.size := by
  unfold Slot.answer; split <;> rfl

@[simp] theorem Slot.answer_merged (x : Slot) (t : Tag) (a : Answer) :
    (x.answer t a).merged = some (mergeAnswer x.merged a) := by
  unfold Slot.answer; split <;> rfl

theorem Slot.answer_response_noData {x : Slot} {t : Tag} {a : Answer}
    (noData : x.kind = .write ∨ (mergeAnswer x.merged a).status = .failed) :
    (x.answer t a).response = .response x.tag (mergeAnswer x.merged a).status.up x.size.code [] := by
  simp only [Slot.response, Slot.answer_merged, Slot.answer_tag, Slot.answer_kind, Slot.answer_size]
  obtain h | h := noData <;> rw [h]
  cases x.kind <;> rfl

theorem Slot.answer_response_data {x : Slot} {t : Tag} (merged : x.merged = none) (read : x.kind = .read)
    (lines : List ReadLine) :
    (x.answer t (.data lines)).response = .response x.tag .done x.size.code (lines.map ReadLine.beat) := by
  simp only [Slot.response, Slot.answer_merged, Slot.answer_tag, Slot.answer_kind, Slot.answer_size, merged, read]
  rfl

theorem DoneOrFailed.up_ite (c : Prop) [Decidable c] :
    (if c then DoneOrFailed.done else .failed).up = if c then .done else .failed :=
  apply_ite DoneOrFailed.up c _ _

theorem DoneOrFailed.worse_ite (st : DoneOrFailed) (c : Prop) [Decidable c] :
    (st.worse (if c then .done else .failed)).up = if st = .done ∧ c then .done else .failed := by
  by_cases h : c <;> cases st <;> simp [h, DoneOrFailed.worse, DoneOrFailed.up]

theorem DoneOrFailed.ite_ite {α : Type} (c : Prop) [Decidable c] (a b : α) :
    (if (if c then DoneOrFailed.done else .failed) = .done then a else b) = if c then a else b := by
  by_cases h : c <;> simp [h]

/-- The half answered is the only one, or the other has been answered. -/
theorem Slot.answer_first_last {x : Slot} {t : Tag} {h : Half} (first : x.first = some h)
    (other : ∀ g, x.second = some g → g.answer ≠ none) (a : Answer) :
    (x.answer t a).anyOutstanding = false ∧ x.answersSecond t = false := by
  have notSecond : x.answersSecond t = false := Slot.answersSecond_eq_false fun g hg out => absurd out (other g hg)
  refine ⟨?_, notSecond⟩
  rw [Slot.answer_first notSecond first a]
  refine Slot.anyOutstanding_eq_false ?_
  rintro g (hg | hg)
  · cases hg; exact Option.some_ne_none _
  · exact other g hg

theorem Slot.answer_second_last {x : Slot} {t : Tag} {h : Half} (second : x.second = some h) (out : h.answer = none)
    (tag : h.tag = t) (other : ∀ g, x.first = some g → g.answer ≠ none) (a : Answer) :
    (x.answer t a).anyOutstanding = false ∧ x.answersSecond t = true := by
  refine ⟨?_, Slot.answersSecond_iff.mpr ⟨h, second, out, tag⟩⟩
  rw [Slot.answer_second second out tag a]
  refine Slot.anyOutstanding_eq_false ?_
  rintro g (hg | hg)
  · exact other g hg
  · cases hg; exact Option.some_ne_none _

/-- Settles O19: the owner's handling is the slot's; the report taken first is independent of the owner's handling. -/
theorem readAnsweredUpstream : Obligations.ReadAnsweredUpstream := by
  unfold Obligations.ReadAnsweredUpstream
  refine ⟨fun tag status beats first s free => exec_response_of_free free first, ?_, ?_, ?_⟩
  · intro tag status beats e k x h s high link distinct held owner read slot active kind first out atTag second merged
    have single : ∀ g, x.second = some g → g.answer ≠ none := fun g hg => by rw [second] at hg; cases hg
    obtain ⟨last, other⟩ := Slot.answer_first_last (t := tag) first single (answerOf e status beats)
    have run := exec_readResponse (status := status) (beats := beats) high link distinct held read
    simp only [State.route, owner] at run
    rw [requestResponse_answered (by exact slot) rfl last active, State.reportIfSecondFailed_first other,
      State.sendUp_freeSlotCredit] at run
    rw [run]
    constructor
    · intro data length known
      obtain ⟨lines, taken, back⟩ := answerOf_data read data length known
      rw [taken, Slot.answer_response_data merged kind, back]
      unfold responseReport
      rw [if_pos ⟨data, length, known⟩]
      rfl
    · intro failed
      rw [answerOf_read_failed read failed, Slot.answer_response_noData (.inr (by rw [merged]; rfl)), merged]
      unfold responseReport
      rw [if_neg failed]
      rfl
  · intro tag status beats first e k x h s high link distinct held owner write slot active kind half out atTag second merged
    have single : ∀ g, x.second = some g → g.answer ≠ none := fun g hg => by rw [second] at hg; cases hg
    obtain ⟨last, other⟩ := Slot.answer_first_last (t := tag) half single (answerOf e status beats)
    refine exec_writeResponse high link distinct held owner write ?_
    rw [requestResponse_answered (by exact slot) rfl last active, State.reportIfSecondFailed_first other, State.sendUp_freeSlotCredit,
      Slot.answer_response_noData (.inl kind), merged]
    simp only [mergeAnswer, answerOf_write_status write, DoneOrFailed.up_ite]
    rfl
  · intro tag status beats e s high link distinct held
    exact ⟨writeResponse_order high link distinct held, readResponse_reportFirst high link distinct held⟩

/-- Settles O20: which half the tag names, and whether the other is still outstanding, decide between keeping the answer,
answering upstream and the late answer. -/
theorem dualAndLateAnswers : Obligations.DualAndLateAnswers := by
  unfold Obligations.DualAndLateAnswers
  refine ⟨?_, ?_, ?_, ?_, ?_, ?_⟩
  · intro tag status beats first e k x h1 h2 s high link distinct held owner write slot _ half1 half2 out1 tag1 out2 tag2 merged
    refine exec_writeResponse high link distinct held owner write ?_
    have other : x.answersSecond tag = false := Slot.answersSecond_eq_false fun g hg _ => by
      rw [half2] at hg; cases hg; exact tag2
    rw [requestResponse_kept (by exact slot) (Slot.answer_first other half1 _)
      (Slot.anyOutstanding_iff.mpr ⟨h2, .inr half2, out2⟩), State.reportIfSecondFailed_first other, merged]
    simp only [mergeAnswer, answerOf_write_status write, answerOf_write_lines write]
    rfl
  · intro tag status beats first e k x h1 h2 st s high link distinct held owner write slot active kind half1 half2 out1 out2 tag2
      merged
    refine exec_writeResponse high link distinct held owner write ?_
    have answered : ∀ g, x.first = some g → g.answer ≠ none := fun g hg => by
      rw [half1] at hg; cases hg; rw [out1]; exact Option.some_ne_none st
    obtain ⟨last, other⟩ := Slot.answer_second_last half2 out2 tag2 answered (answerOf e status beats)
    rw [requestResponse_answered (by exact slot) rfl last active, State.reportIfSecondFailed_second other, State.sendUp_freeSlotCredit,
      Slot.answer_response_noData (.inl kind), merged]
    simp only [mergeAnswer, answerOf_write_status write, DoneOrFailed.worse_ite, DoneOrFailed.ite_ite]
    rfl
  · intro tag status beats first e k x h1 h2 s high link distinct held owner write slot _ half1 half2 out1 tag1 out2 tag2 merged
    refine exec_writeResponse high link distinct held owner write ?_
    rw [requestResponse_kept (by exact slot) (Slot.answer_second half2 out2 tag2 _)
      (Slot.anyOutstanding_iff.mpr ⟨h1, .inl half1, out1⟩),
      State.reportIfSecondFailed_second (Slot.answersSecond_iff.mpr ⟨h2, half2, out2, tag2⟩), merged]
    simp only [mergeAnswer, answerOf_write_status write, answerOf_write_lines write, DoneOrFailed.ite_ite]
    rfl
  · intro tag status beats first e k x h1 h2 st s high link distinct held owner write slot active kind half1 half2 out1 tag1 out2
      merged
    refine exec_writeResponse high link distinct held owner write ?_
    have answered : ∀ g, x.second = some g → g.answer ≠ none := fun g hg => by
      rw [half2] at hg; cases hg; rw [out2]; exact Option.some_ne_none st
    obtain ⟨last, other⟩ := Slot.answer_first_last (t := tag) half1 answered (answerOf e status beats)
    rw [requestResponse_answered (by exact slot) rfl last active, State.reportIfSecondFailed_first other, State.sendUp_freeSlotCredit,
      Slot.answer_response_noData (.inl kind), merged]
    simp only [mergeAnswer, answerOf_write_status write, DoneOrFailed.worse_ite]
    rfl
  · intro tag status beats first e k x h targetHalf s high link distinct held owner write slot orphan out atTag half
    refine exec_writeResponse high link distinct held owner write ?_
    obtain ⟨rfl, half1, other⟩ | ⟨rfl, half2, other⟩ := half
    · obtain ⟨last, notSecond⟩ := Slot.answer_first_last (t := tag) half1 other (answerOf e status beats)
      rw [requestResponse_late (by exact slot) rfl last orphan, State.reportIfSecondFailed_first notSecond]
      simp only [true_or, if_true, List.append_nil]
      rfl
    · obtain ⟨last, second⟩ := Slot.answer_second_last half2 out atTag other (answerOf e status beats)
      rw [requestResponse_late (by exact slot) rfl last orphan, State.reportIfSecondFailed_second second]
      simp only [answerOf_write_status write, DoneOrFailed.ite_ite, Bool.true_eq_false, false_or]
      rfl
  · intro tag status beats e k x h s high link distinct held owner read slot orphan half out atTag second
    have single : ∀ g, x.second = some g → g.answer ≠ none := fun g hg => by rw [second] at hg; cases hg
    obtain ⟨last, other⟩ := Slot.answer_first_last (t := tag) half single (answerOf e status beats)
    have run := exec_readResponse (status := status) (beats := beats) high link distinct held read
    simp only [State.route, owner] at run
    rw [requestResponse_late (by exact slot) rfl last orphan, State.reportIfSecondFailed_first other] at run
    exact ⟨_, run, rfl, rfl, rfl, rfl, rfl, rfl⟩

end Sys2Proof.Machine
end

section
/-! The deadline of a tracker slot (R42 to R44). -/

namespace Sys2Proof.Machine

/-! ### The slot that ends unissued (R43) -/

theorem State.blockFor_eq {s : State} {x : Slot} {p : Nat}
    (h : (s.mig.context.steer x.l x.q x.kind = .notUnderMigration ∧ p = s.translate x.l) ∨
      s.mig.context.steer x.l x.q x.kind = .source p ∨
      (∃ sp, s.mig.context.steer x.l x.q x.kind = .target sp ∧ p = s.limit + sp) ∨
      (∃ sp, s.mig.context.steer x.l x.q x.kind = .dual p sp) ∨
      s.mig.context.steer x.l x.q x.kind = .held p) : s.blockFor x = p := by
  unfold State.blockFor
  obtain ⟨h, rfl⟩ | h | ⟨sp, h, rfl⟩ | ⟨sp, h⟩ | h := h <;> rw [h]

/-- A slot not yet issued answered TIMEOUT and freed, before any hold test. -/
def State.expired (s : State) (k : Nat) (x : Slot) : State :=
  ((((s.advanceTo x.deadline).sendUp x.timeoutResponse).leaveQueues k).freeSlotCredit k).hand .request
    (.respTimeout .request (s.blockFor x))

theorem State.now_advanceTo (s : State) (t : Nat) : (s.advanceTo t).clock = { s.clock with now := max s.clock.now t } := by
  have : s.clock.now + (t - s.clock.now) = max s.clock.now t := by omega
  rw [← this]
  rfl

theorem State.expired_upSent (s : State) (k : Nat) (x : Slot) :
    (s.expired k x).upSent = s.upSent ++ [.response x.tag .timeout x.size.code [], .credit 1#8] := by
  simp [State.expired, Slot.timeoutResponse]

/-- Taking a slot from the relay queue gives a new head exactly when it was the head. -/
theorem head?_filter_ne {relay : List Nat} {k : Nat} :
    (relay.filter fun j => j != k).head? = relay.head? ↔ relay.head? ≠ some k := by
  cases relay with
  | nil => simp
  | cons j rest =>
    by_cases h : j = k
    · subst h
      have gone : ((j :: rest).filter fun i => i != j).head? ≠ some j := fun head => by
        simpa using List.mem_of_mem_head? (Option.mem_def.mpr head)
      simpa using gone
    · simp [h]

/-- When the slot's leaving gives a new head or ends a stall the hold test is made, and otherwise not (R31, R32). -/
theorem exec_slotDeadline_waiting {s : State} {k : Nat} {x : Slot} (high : s.pwrOk = true)
    (slot : s.req.slots[k]? = some (some x)) (waiting : x.state = .queued ∨ x.state = .held) :
    ∃ u : State, exec (.slotDeadlineExpiry k) s = .next u ∧
      ((x.state = .queued ∧ s.req.relay.head? = some k) ∨ (x.state = .held ∧ s.waitsForRoom) →
        u = (s.expired k x).headTested) ∧
      (¬((x.state = .queued ∧ s.req.relay.head? = some k) ∨ (x.state = .held ∧ s.waitsForRoom)) → u = s.expired k x) := by
  refine ⟨_, rfl, ?_⟩
  simp only [slotDeadlineEffect, powered, high, if_true, State.slot?_eq_some.mpr slot]
  have relay : (s.expired k x).req.relay = s.req.relay.filter fun j => j != k := by simp [State.expired]
  obtain st | st := waiting <;> simp only [st, reduceCtorEq, true_and, false_and, or_false, false_or] <;>
    change (_ → _ = (s.expired k x).headTested) ∧ (_ → _ = s.expired k x)
  · refine ⟨fun head => ?_, fun head => ?_⟩
    · exact if_neg (by rw [← State.expired, relay, head?_filter_ne]; exact fun h => h head)
    · exact if_pos (by rw [← State.expired, relay, head?_filter_ne]; exact head)
  · refine ⟨fun room => if_pos (s.stalled_iff.mpr room), fun room => if_neg (mt s.stalled_iff.mp room)⟩

/-- Settles O21: by the slot's state when the time comes: waiting, ACTIVE or another. -/
theorem slotDeadlineTimesOut : Obligations.SlotDeadlineTimesOut := by
  unfold Obligations.SlotDeadlineTimesOut
  refine ⟨?_, ?_, ?_⟩
  · intro k x p s high slot waiting block
    obtain ⟨u, run, tested, untested⟩ := exec_slotDeadline_waiting high slot waiting
    have frame : ∃ r, u = { s.expired k x with req := r } := by
      by_cases test : (x.state = .queued ∧ s.req.relay.head? = some k) ∨ (x.state = .held ∧ s.waitsForRoom)
      · rw [tested test]; exact State.headTested_frame _
      · exact ⟨_, untested test⟩
    have freed : (s.expired k x).req =
        { credits := s.req.credits + 1, slots := s.req.slots.set k none
          relay := s.req.relay.filter fun j => j != k, hold := s.req.hold.filter fun j => j != k } := by
      simp [State.expired]
    refine ⟨u, _, run, ?_, rfl, fun test => ?_, fun test => ?_, ?_, ?_, ?_⟩
    · obtain ⟨r, rfl⟩ := frame
      exact s.expired_upSent k x
    · rw [tested test, ← freed]
      exact (s.expired k x).headTested_holdTested.1
    · rw [untested test, freed]
    · obtain ⟨r, rfl⟩ := frame
      rw [← State.blockFor_eq block]
      rfl
    · obtain ⟨r, rfl⟩ := frame
      exact s.now_advanceTo x.deadline
    · obtain ⟨r, rfl⟩ := frame
      rfl
  · intro k x h p s high slot active first block
    refine ⟨_, rfl, ?_⟩
    have named : x.outstandingBlock = p := by
      unfold Slot.outstandingBlock
      obtain ⟨out, rfl⟩ | ⟨out, h2, second, rfl⟩ := block
      · rw [first]
        cases x.second <;> simp [Half.outstanding, out]
      · simp [first, second, Half.outstanding, out]
    simp only [slotDeadlineEffect, powered, high, if_true, State.slot?_eq_some.mpr slot, active, named]
    exact ⟨rfl, rfl, rfl, s.now_advanceTo x.deadline, rfl⟩
  · intro k s orphan
    simp only [exec, execSlotDeadlineExpiry, slotDeadlineEffect, powered]
    cases slot : s.slot? k with
    | none => simp
    | some x => simp [orphan x (State.slot?_eq_some.mp slot)]

end Sys2Proof.Machine
end

section
/-! The start, the claim and the commit of a migration (R71 to R77, R84, R85). -/

namespace Sys2Proof.Machine

/-! ### The start (R10, R67, R71 to R73) -/

theorem deferred_iff {t : List Entry} {l : Nat} :
    deferred t l = true ↔ ∃ e ∈ t, e.serves? = some l ∧ e.commitPending = true := by
  simp [deferred]

theorem State.mayBeTarget_iff {s : State} {k : Nat} :
    (entryAt s.table k == .free && !s.spareInFlight k) = true ↔ s.mayBeTarget k := by
  simp [State.mayBeTarget, State.spareInFlight, State.blockInFlight]

theorem State.eligibleSpare_of_lowest {s : State} {k : Nat} (inPool : k < 128) (target : s.mayBeTarget k)
    (lowest : ∀ j < k, ¬s.mayBeTarget j) : s.eligibleSpare = some k := by
  refine List.find?_range_eq_some.mpr ⟨State.mayBeTarget_iff.mpr target, List.mem_range.mpr inPool, fun j hj => ?_⟩
  rw [Bool.not_eq_true', ← Bool.not_eq_true, State.mayBeTarget_iff]
  exact lowest j hj

theorem State.eligibleSpare_of_none {s : State} (none : ∀ k < 128, ¬s.mayBeTarget k) : s.eligibleSpare = .none := by
  refine List.find?_range_eq_none.mpr fun k hk => ?_
  rw [Bool.not_eq_true', ← Bool.not_eq_true, State.mayBeTarget_iff]
  exact none k hk

section Start
variable {s : State} {before after : List RetireRequest} {r : RetireRequest}

theorem State.startable_of_first (waiting : s.mig.waiting = before ++ r :: after)
    (passed : ∀ b ∈ before, deferred s.table b.l = true) (here : deferred s.table r.l = false) :
    s.startable = some before.length := by
  unfold State.startable
  have none : before.findIdx? (fun r => !deferred s.table r.l) = none :=
    List.findIdx?_eq_none_iff.mpr fun b hb => by rw [passed b hb]; rfl
  rw [waiting, List.findIdx?_append, none, List.findIdx?_cons, here]
  simp

/-- A start event in IDLE and READY starts the startable request nearest the head. -/
theorem exec_start (high : s.pwrOk = true) (ready : s.isReady = true) (prst : s.prstN = true)
    (event : s.mig.startEvent = true) (idle : s.mig.context = .idle) (waiting : s.mig.waiting = before ++ r :: after)
    (passed : ∀ b ∈ before, deferred s.table b.l = true) (here : deferred s.table r.l = false) :
    exec .start s = .next (s.startRequest before.length r) := by
  have may : s.mayStart = true := by simp [State.mayStart, idle, ready, prst]
  have found : s.mig.waiting[before.length]? = some r := by simp [waiting]
  simp only [exec, execStart, startEffect, powered, high, event, may, State.startable_of_first waiting passed here, found,
    Bool.true_eq_false, if_true, if_false]

end Start

/-- Settles O22: the request taken is the first not deferred; its target is the lowest eligible spare. -/
theorem startReservesLowestSpare : Obligations.StartReservesLowestSpare := by
  unfold Obligations.StartReservesLowestSpare
  intro before after r s high ready prst event idle waiting passed here
  have run := exec_start high ready prst event idle waiting (fun b hb => deferred_iff.mpr (passed b hb))
    (by rw [← Bool.not_eq_true, deferred_iff]; rintro ⟨e, he, serves, pending⟩; rw [here e he serves] at pending; cases pending)
  have rest : s.mig.waiting.eraseIdx before.length = before ++ after := by
    rw [waiting, List.eraseIdx_append_of_length_le (Nat.le_refl _), Nat.sub_self, List.eraseIdx_cons_zero]
  constructor
  · intro k inPool target lowest
    rw [run, State.startRequest, State.eligibleSpare_of_lowest inPool target lowest, rest]
    rfl
  · intro none
    rw [run, State.startRequest, State.eligibleSpare_of_none none, rest]
    cases origin : r.origin with
    | manual => exact ⟨_, rfl, rfl, rfl, fun _ => rfl, fun p h => (by cases h), rfl⟩
    | auto q => exact ⟨_, rfl, rfl, rfl, fun h => (by cases h), fun p h => (by cases h; rfl), rfl⟩

/-! ### The removal of a request-path write (R53) -/

theorem State.drainsQuad_removeTag {s : State} {tag : Tag} {p q : Nat} :
    (s.removeTag tag).drainsQuad p q ↔ s.drainsQuadBeside tag p q := by
  simp [State.drainsQuad, State.drainsQuadBeside, and_assoc]

theorem State.drainsBlock_removeTag {s : State} {tag : Tag} {p : Nat} :
    (s.removeTag tag).drainsBlock p ↔ s.drainsBlockBeside tag p := by
  simp [State.drainsBlock, State.drainsBlockBeside, and_assoc]

theorem State.reportIfSecondFailed_failures (s : State) (x : Slot) (e : OutEntry) (t : Tag) (a : Answer) :
    ∃ fs, s.reportIfSecondFailed x e t a = { s with mig := { s.mig with failures := fs } } := by
  unfold State.reportIfSecondFailed
  split
  · exact ⟨_, rfl⟩
  · exact ⟨s.mig.failures, rfl⟩

/-- Of the migration unit the slot's handling changes the failure reports alone. -/
theorem requestResponse_migration (k : Nat) (t : Tag) (e : OutEntry) (a : Answer) (s : State) :
    ∃ r fs c up, requestResponse k t e a s =
      { s with req := r, mig := { s.mig with failures := fs }, recs := c, upSent := up } := by
  unfold requestResponse
  split
  · exact ⟨s.req, s.mig.failures, s.recs, s.upSent, rfl⟩
  next x slot =>
    obtain ⟨fs, reported⟩ := s.reportIfSecondFailed_failures x e t a
    simp only [reported]
    split
    · exact ⟨_, fs, s.recs, s.upSent, rfl⟩
    · split <;> exact ⟨_, fs, _, _, rfl⟩

/-- The response of a request-path write, to the migration unit: the removal taken from a state that differs in the request
path, the failure reports and the records alone. -/
theorem exec_writeResponse_removal {tag : Tag} {status : BitVec 2} {beats : List ReadBeat} {e : OutEntry}
    {k : Nat} {s : State} (high : s.pwrOk = true) (link : s.arb.linkUp = true)
    (distinct : (s.arb.outstanding.map Prod.fst).Nodup) (held : (tag, e) ∈ s.arb.outstanding)
    (owner : e.owner = .request k) (write : e.dir = .write) (first : Bool) :
    ∃ u r fs c up, exec (.downstreamResponse tag status beats first) s = .next u ∧
      State.removalTaken
        { s.removeTag tag with req := r, mig := { s.mig with failures := fs }, recs := c, upSent := up } u e := by
  obtain ⟨r, fs, c, up, handled⟩ := requestResponse_migration k tag e (answerOf e status beats) (s.removeTag tag)
  obtain ⟨u, run, taken⟩ := exec_writeResponse (first := first) high link distinct held owner write handled
  exact ⟨u, r, fs, c, up, run, taken⟩

/-! ### The claim (R76, R77) -/

section Claim
variable {s : State} {m : Move} {p : Nat}

theorem State.tryRead_of_drains (context : s.mig.context = .copying m p (some .claimed)) (drains : s.drainsQuad m.source p) :
    s.tryRead = s := by
  unfold State.tryRead
  rw [context]
  exact if_pos (s.writeToQuad_iff m.source p |>.mpr drains)

theorem State.tryRead_of_clear (context : s.mig.context = .copying m p (some .claimed)) (clear : ¬s.drainsQuad m.source p) :
    s.tryRead = { s with mig := { s.mig with context := .copying m p (some (.reading none)) } } := by
  unfold State.tryRead
  rw [context]
  exact if_neg (mt (s.writeToQuad_iff m.source p).mp clear)

theorem exec_claim (high : s.pwrOk = true) (context : s.mig.context = .copying m p none) (below : p < 64) :
    exec .claim s = .next (s.setMig { s.mig with context := .copying m p (some .claimed) }).tryRead := by
  simp only [exec, execClaim, claimEffect, powered, high, context, if_true, if_pos (show p < Config.quads from below)]

theorem exec_claimDrainMet (high : s.pwrOk = true) : exec .claimDrainMet s = .next s.tryRead := by
  simp only [exec, execClaimDrainMet, claimDrainMetEffect, powered, high, if_true]

end Claim

/-- Settles O23: `State.tryRead` waits for the writes of the quad, whether CLAIM, CLAIM_DRAIN_MET or a write response calls
it. -/
theorem claimWaitsForWrites : Obligations.ClaimWaitsForWrites := by
  unfold Obligations.ClaimWaitsForWrites
  intro m p s high
  refine ⟨?_, ?_, ?_, ?_, ?_⟩
  · intro context below drains
    rw [exec_claim high context below]
    exact congrArg Host.Outcome.next (State.tryRead_of_drains (m := m) (p := p) rfl drains)
  · intro context below clear
    rw [exec_claim high context below]
    exact congrArg Host.Outcome.next (State.tryRead_of_clear (m := m) (p := p) rfl clear)
  · intro context drains
    rw [exec_claimDrainMet high, State.tryRead_of_drains context drains]
  · intro context clear
    rw [exec_claimDrainMet high, State.tryRead_of_clear context clear]
  · intro tag status beats first e k context link distinct held owner write block quad
    obtain ⟨u, r, fs, c, up, run, -, claimed, -⟩ := exec_writeResponse_removal (status := status) (beats := beats) high link
      distinct held owner write first
    obtain ⟨stays, reads⟩ := claimed m p context block quad
    refine ⟨u, run, fun drains => ?_, fun clear => ?_, ?_⟩
    · rw [stays (State.drainsQuad_removeTag.mpr drains)]; exact context
    · rw [reads (mt State.drainsQuad_removeTag.mp clear)]
    · by_cases drains : s.drainsQuadBeside tag m.source p
      · rw [stays (State.drainsQuad_removeTag.mpr drains)]; exact ⟨rfl, rfl, rfl⟩
      · rw [reads (mt State.drainsQuad_removeTag.mp drains)]; exact ⟨rfl, rfl, rfl⟩

/-! ### The commit (R11, R84, R85, R115) -/

section Commit
variable {s : State} {m : Move}

theorem State.tryCommit_of_drains (context : s.mig.context = .finishing m) (drains : s.drainsBlock m.source) :
    s.tryCommit = s := by
  unfold State.tryCommit
  rw [context]
  exact if_pos (s.writeToBlock_iff m.source |>.mpr drains)

theorem State.tryCommit_of_clear (context : s.mig.context = .finishing m) (clear : ¬s.drainsBlock m.source) :
    s.tryCommit = s.commitMove m := by
  unfold State.tryCommit
  rw [context]
  exact if_neg (mt (s.writeToBlock_iff m.source).mp clear)

theorem exec_commit (high : s.pwrOk = true) : exec .commit s = .next s.tryCommit := by
  simp only [exec, execCommit, commitEffect, powered, high, if_true]

/-- What a commit leaves alone, and what it writes of the migration unit and the records. -/
theorem State.commitMove_effect (s : State) (m : Move) :
    (s.commitMove m).mig = { s.mig with context := .idle, startEvent := true } ∧
      (s.commitMove m).recs =
        { s.recs with
          handed := s.recs.handed ++
            [{ producer := .migration, body := .migDone m.req.l m.source m.target, action := none }] } ∧
      { s.commitMove m with table := s.table, watch := s.watch, mig := s.mig, recs := s.recs } = s := by
  unfold State.commitMove State.freeSuspect
  generalize commitTable s.limit s.table m = table
  split <;> exact ⟨rfl, rfl, rfl⟩

end Commit

/-- Settles O24: `State.tryCommit` waits for the writes of the source, and `State.commitMove` switches the translation. -/
theorem commitSwitchesTranslation : Obligations.CommitSwitchesTranslation := by
  unfold Obligations.CommitSwitchesTranslation
  intro m s high context table target source distinctBlocks
  refine ⟨?_, ?_, ?_⟩
  · intro drains
    rw [exec_commit high, State.tryCommit_of_drains context drains]
  · intro clear
    rw [exec_commit high, State.tryCommit_of_clear context clear]
    exact ⟨_, rfl, State.commitMove_switchedBy (table ▸ target) source distinctBlocks, s.commitMove_effect m⟩
  · intro tag status beats first e k link distinct held owner write block
    obtain ⟨u, r, fs, c, up, run, -, -, finishing⟩ := exec_writeResponse_removal (status := status) (beats := beats) high link
      distinct held owner write first
    obtain ⟨stays, commits⟩ := finishing m context block
    refine ⟨u, run, ?_, fun drains => ?_, fun clear => ?_⟩
    · by_cases drains : s.drainsBlockBeside tag m.source
      · rw [stays (State.drainsBlock_removeTag.mpr drains)]
      · obtain ⟨-, mig, -⟩ := commits (mt State.drainsBlock_removeTag.mp drains)
        rw [mig]
    · rw [stays (State.drainsBlock_removeTag.mpr drains)]
      exact ⟨context, rfl, rfl, rfl⟩
    · obtain ⟨switched, mig, recs, -⟩ := commits (mt State.drainsBlock_removeTag.mp clear)
      refine ⟨by rw [mig], by rw [mig], switched table target source distinctBlocks, c.handed, by rw [recs]⟩

end Sys2Proof.Machine
end

section
/-! The ends of a migration and the copy engine's responses (R33, R79 to R90). -/

namespace Sys2Proof.Machine

/-! ### A migration stopped in COPYING (R12, R13, R81, R87, R88) -/

theorem State.heldReturned_of_req {s u : State} (h : u.req = s.returnHeld.req) : s.heldReturned u := by
  obtain ⟨returned, -⟩ := s.returnHeld_heldReturned
  unfold State.heldReturned at *
  rw [h]
  exact returned

/-- The request unit after the lock of a stopped migration is released. -/
theorem State.releaseLock_req (s : State) (lock : Option Lock) :
    (lock = none → (s.releaseLock lock).req = s.req) ∧ (lock ≠ none → (s.releaseLock lock).req = s.returnHeld.req) := by
  cases lock with
  | none => exact ⟨fun _ => rfl, fun h => absurd rfl h⟩
  | some l => exact ⟨(fun h => by cases h), fun _ => rfl⟩

theorem State.releaseLock_rest (s : State) (lock : Option Lock) : { s.releaseLock lock with req := s.req } = s := by
  cases lock <;> rfl

/-- From s to u a migration has failed on its target: T is RETIRED, TARGET_BAD is written, the retry decision is made, the held
slots return if a lock was present, and the context is IDLE. -/
structure State.TargetFailed (s u : State) (m : Move) (lock : Option Lock) (cause : TargetCause) (firing : Option Nat) :
    Prop where
  table : u.table = s.table.set m.target (.retired none none false false)
  retried : m.req.retry + 1 ≤ s.params.retryLimit →
    u.mig =
        { s.mig with
          context := .idle, startEvent := true
          waiting := { m.req with retry := m.req.retry + 1 } :: s.mig.waiting } ∧
      u.recs =
        { s.recs with
          handed := s.recs.handed ++
            [{ producer := .migration, body := .targetBad m.req.l m.target cause, action := none, firing := firing }] }
  discarded : s.params.retryLimit < m.req.retry + 1 →
    u.mig = { s.mig with context := .idle, startEvent := true } ∧
      u.recs =
        { s.recs with
          handed := s.recs.handed ++
            [{ producer := .migration, body := .targetBad m.req.l m.target cause, action := none, firing := firing },
             { producer := .migration, body := .migFailed m.req.l .retries, action := none }] }
  unlocked : lock = none → u.req = s.req
  returned : lock ≠ none → s.heldReturned u
  rest : { u with table := s.table, mig := s.mig, recs := s.recs, req := s.req } = s

theorem State.failTarget_targetFailed (s : State) (m : Move) (lock : Option Lock) (cause : TargetCause)
    (firing : Option Nat) : s.TargetFailed (s.failTarget m lock cause firing) m lock cause firing := by
  obtain ⟨unlocked, returned⟩ := s.releaseLock_req lock
  have req : (s.failTarget m lock cause firing).req = (s.releaseLock lock).req := by
    unfold State.failTarget State.retryDecision
    split <;> rfl
  have released := s.releaseLock_rest lock
  generalize hv : s.releaseLock lock = v at *
  have decided : ∃ r, s = { v with req := r } := ⟨s.req, released.symm⟩
  obtain ⟨r, rfl⟩ := decided
  refine ⟨?_, fun below => ?_, fun above => ?_, fun h => req.trans (unlocked h),
    fun h => State.heldReturned_of_req (req.trans (returned h)), ?_⟩ <;>
    unfold State.failTarget State.retryDecision <;> rw [hv]
  · split <;> rfl
  · rw [if_neg (by exact Nat.not_lt.mpr below)]
    exact ⟨rfl, rfl⟩
  · rw [if_pos (by exact above)]
    exact ⟨rfl, by simp [State.hand]⟩
  · split <;> rfl

/-- From s to u a migration has been stopped with its target fault-free: T is FREE, one record is written, the held slots return
if a lock was present, and the context is IDLE. -/
structure State.MoveStopped (s u : State) (m : Move) (lock : Option Lock) (record : RecordBody) : Prop where
  table : u.table = s.table.set m.target .free
  mig : u.mig = { s.mig with context := .idle, startEvent := true }
  recs : u.recs =
    { s.recs with handed := s.recs.handed ++ [{ producer := .migration, body := record, action := none }] }
  unlocked : lock = none → u.req = s.req
  returned : lock ≠ none → s.heldReturned u
  rest : { u with table := s.table, mig := s.mig, recs := s.recs, req := s.req } = s

theorem State.stopMove_moveStopped (s : State) (m : Move) (lock : Option Lock) (record : RecordBody) :
    s.MoveStopped (s.stopMove m lock record).toIdle m lock record := by
  cases lock with
  | none => exact ⟨rfl, rfl, rfl, fun _ => rfl, fun h => absurd rfl h, rfl⟩
  | some l => exact ⟨rfl, rfl, rfl, fun h => (by cases h), fun _ => State.heldReturned_of_req rfl, rfl⟩

/-- Settles O25: a read in time stops the migration, a write in time fails its target. -/
theorem copyDeadlineStops : Obligations.CopyDeadlineStops := by
  unfold Obligations.CopyDeadlineStops
  intro m p c s high
  refine ⟨fun context => ?_, fun lines context => ?_⟩
  · have stopped := (s.advanceTo c.deadline).stopMove_moveStopped m (some (.reading (some c))) (.migFailed m.req.l .timeout)
    refine ⟨_, rfl, ?_⟩
    simp only [copyDeadlineEffect, powered, high, context, if_true]
    refine ⟨stopped.table, stopped.mig, stopped.recs, stopped.returned (Option.some_ne_none _), ?_, ?_⟩
    · exact (congrArg State.clock stopped.rest).trans (s.now_advanceTo c.deadline)
    · exact congrArg (fun u : State => { u with clock := s.clock, patrol := s.patrol }) stopped.rest
  · have failed :=
      (s.advanceTo c.deadline).failTarget_targetFailed m (some (.writing lines (some c))) .writeTimeout none
    refine ⟨_, rfl, ?_⟩
    simp only [copyDeadlineEffect, powered, high, context, if_true]
    refine ⟨failed.table, failed.returned (Option.some_ne_none _), failed.retried, failed.discarded, ?_, ?_⟩
    · exact (congrArg State.clock failed.rest).trans (s.now_advanceTo c.deadline)
    · exact congrArg (fun u : State => { u with clock := s.clock, patrol := s.patrol }) failed.rest

theorem State.takeFailure_copying {s : State} {m : Move} {p : Nat} {lock : Option Lock} {r : FailureReport}
    (context : s.mig.context = .copying m p lock) (named : r.spare = m.target) :
    s.takeFailure r = s.failTarget m lock r.cause r.firing := by
  unfold State.takeFailure
  rw [context]
  exact if_pos named

/-- Settles O26: the report names the target of the migration, or a spare that is no longer it. -/
theorem targetFailureRetires : Obligations.TargetFailureRetires := by
  unfold Obligations.TargetFailureRetires
  intro k r s high report
  have run : exec (.targetFailure k) s =
      .next ((s.setMig { s.mig with failures := s.mig.failures.eraseIdx k }).takeFailure r) := by
    simp only [exec, execTargetFailure, targetFailureEffect, powered, high, report, if_true]
  rw [run]
  constructor
  · intro m p lock context named
    have failed := (s.setMig { s.mig with failures := s.mig.failures.eraseIdx k }).failTarget_targetFailed m lock r.cause
      r.firing
    rw [State.takeFailure_copying (by exact context) named]
    exact ⟨_, rfl, failed.table, failed.retried, failed.discarded, failed.unlocked, failed.returned,
      congrArg (fun u : State => { u with mig := s.mig }) failed.rest⟩
  · intro other
    unfold State.takeFailure
    simp only [State.setMig_mig]
    split
    next m p lock context => rw [if_neg (other m p lock context)]; rfl
    · rfl

/-! ### The copy responses (R79 to R82) -/

theorem ReadLine.toCopy_eq (l : ReadLine) : l.toCopy = { data := l.beat.data, poison := l.beat.side == 2#2 } := by
  obtain ⟨data, st⟩ := l
  cases st <;> rfl

theorem copyBuffer_of_beats {lines : List ReadLine} {beats : List ReadBeat} (h : lines.map ReadLine.beat = beats) :
    copyBuffer (.data lines) = beats.map fun b => { data := b.data, poison := b.side == 2#2 } := by
  rw [← h, List.map_map]
  exact List.map_congr_left fun l _ => l.toCopy_eq

/-- A COPY_POISON for each poisoned line of the buffer, in line order. -/
theorem State.handPoison_eq (s : State) (l p source : Nat) (buffer : List WriteLine) :
    s.handPoison l p source buffer =
      { s with recs := { s.recs with handed := s.recs.handed ++
          ((buffer.zipIdx.filter fun y => y.1.poison).map fun y =>
            { producer := .migration, body := .copyPoison l (4 * p + y.2) source, action := none }) } } := by
  unfold State.handPoison
  generalize buffer.zipIdx = lines
  induction lines generalizing s with
  | nil => simp
  | cons x xs ih =>
    rw [List.foldl_cons, ih, List.filter_cons]
    cases x.1.poison
    · rfl
    · simp [State.hand]

theorem State.writeRemoved_of_copy {e : OutEntry} (copy : e.owner = .copy) (v : State) : v.writeRemoved e = v := by
  unfold State.writeRemoved
  rw [if_neg]
  rw [OutEntry.isRequestWrite_iff, copy]
  rintro ⟨⟨k, h⟩, -⟩
  cases h

/-- The response of a copy engine's request. -/
theorem exec_copyResponse {tag : Tag} {e : OutEntry} {status : BitVec 2} {beats : List ReadBeat} {s : State}
    (high : s.pwrOk = true) (link : s.arb.linkUp = true) (distinct : (s.arb.outstanding.map Prod.fst).Nodup)
    (held : (tag, e) ∈ s.arb.outstanding) (copy : e.owner = .copy) :
    exec (.downstreamResponse tag status beats false) s =
      .next (copyResponse tag (answerOf e status beats)
        ((s.removeTag tag).withReports
          (s.watch.reports ++ if e.dir = .read then [responseReport e status beats] else []))) := by
  rw [exec_downstreamResponse high link distinct held, State.writeRemoved_of_copy copy]
  unfold State.route
  rw [copy]
  cases dir : e.dir with
  | read =>
    simp only [State.reportStatuses, dir, Bool.false_eq_true, if_false, if_true, reportOf_answerOf dir]
    rfl
  | write =>
    simp only [State.reportStatuses, dir, reduceCtorEq, if_false, List.append_nil]
    rfl

section Copy
variable {s : State} {tag : Tag} {a : Answer} {m : Move} {p deadline : Nat}

theorem copyResponse_read
    (context : s.mig.context = .copying m p (some (.reading (some { tag := tag, deadline := deadline })))) :
    copyResponse tag a s = s.copyRead m p a := by
  unfold copyResponse
  rw [context]
  exact if_pos rfl

theorem copyResponse_written {lines : List WriteLine}
    (context : s.mig.context = .copying m p (some (.writing lines (some { tag := tag, deadline := deadline }))))
    (done : a ≠ .failed) : copyResponse tag a s = s.copyWritten m p := by
  unfold copyResponse
  rw [context]
  cases a with
  | failed => exact absurd rfl done
  | done | data => exact if_pos rfl

theorem copyResponse_failed {lines : List WriteLine}
    (context : s.mig.context = .copying m p (some (.writing lines (some { tag := tag, deadline := deadline })))) :
    copyResponse tag .failed s =
      s.failTarget m (some (.writing lines (some { tag := tag, deadline := deadline }))) .writeFail := by
  unfold copyResponse
  rw [context]
  exact if_pos rfl

theorem copyResponse_unawaited
    (notRead : ∀ m p deadline,
      s.mig.context ≠ .copying m p (some (.reading (some { tag := tag, deadline := deadline }))))
    (notWrite : ∀ m p lines deadline,
      s.mig.context ≠ .copying m p (some (.writing lines (some { tag := tag, deadline := deadline })))) :
    copyResponse tag a s = s := by
  unfold copyResponse
  split
  next m p c context =>
    exact if_neg fun h => by subst h; exact notRead m p c.deadline context
  next m p lines c context =>
    exact if_neg fun h => by subst h; exact notWrite m p lines c.deadline context
  · rfl

/-- The awaited read fills the buffer; its poisoned lines are recorded. -/
theorem State.copyRead_eq (s : State) (m : Move) (p : Nat) (a : Answer) :
    s.copyRead m p a =
      { s with
        mig := { s.mig with context := .copying m p (some (.writing (copyBuffer a) none)) }
        recs := { s.recs with handed := s.recs.handed ++
          (((copyBuffer a).zipIdx.filter fun y => y.1.poison).map fun y =>
            { producer := .migration, body := .copyPoison m.req.l (4 * p + y.2) m.source, action := none }) } } := by
  unfold State.copyRead
  rw [State.handPoison_eq]
  rfl

end Copy

/-- The entry of a tag that is the copy engine's is no request-path write, so its removal ends no drain. -/
theorem State.drainsBlockBeside_of_copy {s : State} {tag : Tag} {e : OutEntry} {p : Nat}
    (distinct : (s.arb.outstanding.map Prod.fst).Nodup) (held : (tag, e) ∈ s.arb.outstanding) (copy : e.owner = .copy) :
    s.drainsBlockBeside tag p ↔ s.drainsBlock p := by
  refine ⟨fun ⟨x, hx, _, rest⟩ => ⟨x, hx, rest⟩, fun ⟨x, hx, owned, rest⟩ => ⟨x, hx, fun same => ?_, owned, rest⟩⟩
  subst same
  have found := Arbiter.entry?_of_nodup distinct held
  rw [Arbiter.entry?_of_nodup distinct hx] at found
  obtain ⟨k, request⟩ := owned
  rw [Option.some.inj found, copy] at request
  cases request

/-- Settles O27: the response is routed to the copy engine; by the context it is the awaited read, the awaited write, or
unawaited. -/
theorem copyResponsesMoveTheCopy : Obligations.CopyResponsesMoveTheCopy := by
  unfold Obligations.CopyResponsesMoveTheCopy
  refine ⟨?_, ?_, ?_, ?_, ?_, ?_⟩
  · intro tag beats e m p deadline s high link distinct held copy read context length known
    obtain ⟨lines, taken, back⟩ := answerOf_data read rfl length known
    rw [exec_copyResponse high link distinct held copy, taken, if_pos read, copyResponse_read (by exact context),
      State.copyRead_eq, copyBuffer_of_beats back]
    refine ⟨_, rfl, rfl, rfl, rfl, ?_, rfl⟩
    simp only [List.zipIdx_map, List.filter_map, List.map_map]
    rfl
  · intro tag status beats e m p deadline s high link distinct held copy read context failed
    rw [exec_copyResponse high link distinct held copy, answerOf_read_failed read failed, if_pos read,
      copyResponse_read (by exact context), State.copyRead_eq]
    exact ⟨_, rfl, rfl, rfl, rfl, rfl, rfl⟩
  · intro tag e m p deadline lines s high link distinct held copy write below context
    have done : answerOf e 1#2 [] = .done := by simp [answerOf, write]
    rw [exec_copyResponse high link distinct held copy, done, write, copyResponse_written (by exact context) (by simp)]
    simp only [reduceCtorEq, if_false, List.append_nil]
    unfold State.copyWritten
    rw [if_pos (show p + 1 < Config.quads from below)]
    exact ⟨_, rfl, rfl, rfl, State.heldReturned_of_req rfl, rfl⟩
  · intro tag e m deadline lines s high link distinct held copy write context table target source distinctBlocks
    have done : answerOf e 1#2 [] = .done := by simp [answerOf, write]
    rw [exec_copyResponse high link distinct held copy, done, write, copyResponse_written (by exact context) (by simp)]
    simp only [reduceCtorEq, if_false, List.append_nil]
    unfold State.copyWritten
    rw [if_neg (show ¬63 + 1 < Config.quads by decide)]
    generalize hv : State.returnHeld _ = v
    have same : v =
        { s.removeTag tag with mig := { s.mig with context := .finishing m }, req := s.returnHeld.req } := by
      rw [← hv]; rfl
    have finishing : v.mig.context = .finishing m := by rw [same]
    have drain : v.drainsBlock m.source ↔ s.drainsBlock m.source := by
      rw [same]
      exact State.drainsBlock_removeTag.trans (State.drainsBlockBeside_of_copy distinct held copy)
    by_cases drains : s.drainsBlock m.source
    · rw [State.tryCommit_of_drains finishing (drain.mpr drains), same]
      exact ⟨_, rfl, rfl, State.heldReturned_of_req rfl, fun _ => ⟨rfl, rfl⟩, fun clear => absurd drains clear⟩
    · rw [State.tryCommit_of_clear finishing (mt drain.mp drains)]
      obtain ⟨mig, recs, rest⟩ := v.commitMove_effect m
      have switched := State.commitMove_switchedBy (s := v) (m := m) (by rw [same]; exact table ▸ target)
        (by rw [same]; exact source) (by rw [same]; exact distinctBlocks)
      generalize v.commitMove m = u at *
      clear hv
      subst same
      have req := congrArg State.req rest
      exact ⟨_, rfl, congrArg State.arb rest, State.heldReturned_of_req req,
        fun h => absurd h drains, fun _ => ⟨switched, mig, recs,
          congrArg (fun u : State => { u with arb := s.arb, mig := s.mig, req := s.req }) rest⟩⟩
  · intro tag status beats e m p deadline lines s high link distinct held copy write context failed
    have answer : answerOf e status beats = .failed := by simp [answerOf, write, failed]
    rw [exec_copyResponse high link distinct held copy, answer, write, copyResponse_failed (by exact context)]
    simp only [reduceCtorEq, if_false, List.append_nil]
    generalize hv : State.withReports _ _ = v
    have same : v = s.removeTag tag := by rw [← hv]; rfl
    subst same
    have failed := (s.removeTag tag).failTarget_targetFailed m
      (some (.writing lines (some { tag := tag, deadline := deadline }))) .writeFail none
    exact ⟨_, rfl, congrArg State.arb failed.rest, failed.table, failed.returned (Option.some_ne_none _), failed.retried,
      failed.discarded, congrArg (fun u : State => { u with arb := s.arb }) failed.rest⟩
  · intro tag status beats e s high link distinct held copy notRead notWrite
    exact ⟨_, (exec_copyResponse high link distinct held copy).trans
      (congrArg Host.Outcome.next (copyResponse_unawaited (by exact notRead) (by exact notWrite))), rfl, rfl, rfl⟩

end Sys2Proof.Machine
end

section
/-! The common checks of a command, and the commands of the migration unit (R68, R69, R90, R92, R182). -/

namespace Sys2Proof.Machine

/-! ### The common checks (R182, R185) -/

/-- A part that accepts commands answers one by its owning rule's reply. -/
theorem exec_reply {c : Command} {args : List Byte} {n : Nat} {s : State} {r : Reply} (h : s.accepts)
    (notRead : c ≠ .resultRead) (length : args.length = n) (allowed : n ∈ c.lengths) (reply : c.reply args [] s = r) :
    exec (c.instr args) s = .next (r.after.answered c n r.result r.payload) := by
  rw [exec_instr fun read => absurd read notRead, h.command_ofLength length allowed, reply]

/-- Settles O48: `command` makes the two checks before the owning rule runs. -/
theorem commonChecks : Obligations.CommonChecks := by
  unfold Obligations.CommonChecks
  intro c args ahead s frames
  refine ⟨fun loading other notRead => ?_, fun ready length => ?_⟩
  · rw [exec_instr notRead, command_loading frames (by simp [State.isReady, loading]) other]
  · have length' : args.length ∉ c.lengths := by cases c <;> exact length
    have notRead : c = .resultRead → args ≠ [] := by
      rintro rfl rfl
      exact length' (by decide)
    rw [exec_instr notRead]
    by_cases loading : s.isReady = true
    · rw [command_badLength frames loading length']
    · obtain ready | status := ready
      · exact absurd (by simp [State.isReady, ready]) loading
      · have checked : ¬(s.isReady = false ∧ c ≠ .getStatus) := fun h => h.2 status
        rw [command, atPort_of_takes frames, if_neg checked, if_pos length']
        rfl

/-! ### RETIRE and CANCEL_RETIRE (R68, R69) -/

theorem MigrationUnit.isFull_iff {m : MigrationUnit} : m.isFull = true ↔ 8 ≤ m.occupancy := decide_eq_true_iff

section Retire
variable {s : State} {l : Nat}

theorem retireReply_range (beyond : s.limit ≤ l) : retireReply l s = s.refuse .range := if_pos beyond

theorem retireReply_already (below : l < s.limit) (held : l ∈ s.mig.blocks) : retireReply l s = s.refuse .already := by
  rw [retireReply, if_neg (Nat.not_le.mpr below), if_pos (MigrationUnit.holds_iff.mpr held)]

theorem retireReply_full (below : l < s.limit) (free : l ∉ s.mig.blocks) (full : 8 ≤ s.mig.occupancy) :
    retireReply l s = s.refuse .full := by
  rw [retireReply, if_neg (Nat.not_le.mpr below), if_neg (mt MigrationUnit.holds_iff.mp free),
    if_pos (MigrationUnit.isFull_iff.mpr full)]

theorem MigrationUnit.occupancy_join (m : MigrationUnit) (r : RetireRequest) :
    (m.join r).occupancy = m.occupancy + 1 := by
  simp only [MigrationUnit.occupancy, MigrationUnit.join, List.length_append, List.length_singleton, Nat.add_right_comm]
  rfl

theorem retireReply_ok (below : l < s.limit) (free : l ∉ s.mig.blocks) (room : s.mig.occupancy < 8) :
    retireReply l s =
      { result := .ok, payload := be3 l ++ be1 (s.mig.occupancy + 1)
        after := s.setMig (s.mig.join { l := l, origin := .manual, retry := 0, enqueued := s.clock.epoch }) } := by
  rw [retireReply, if_neg (Nat.not_le.mpr below), if_neg (mt MigrationUnit.holds_iff.mp free),
    if_neg (mt MigrationUnit.isFull_iff.mp (Nat.not_le.mpr room))]
  simp only [MigrationUnit.occupancy_join]

theorem cancelRetireReply_range (beyond : s.limit ≤ l) : cancelRetireReply l s = s.refuse .range := if_pos beyond

theorem cancelRetireReply_none (below : l < s.limit) (none : ∀ r ∈ s.mig.waiting, r.l ≠ l) :
    cancelRetireReply l s = s.refuse .none := by
  have found : s.mig.waiting.find? (fun r => r.l == l) = .none :=
    List.find?_eq_none.mpr fun r hr => by simpa using none r hr
  rw [cancelRetireReply, if_neg (Nat.not_le.mpr below), found]

theorem cancelRetireReply_ok {before after : List RetireRequest} {r : RetireRequest} (below : l < s.limit)
    (waiting : s.mig.waiting = before ++ r :: after) (named : r.l = l) (first : ∀ b ∈ before, b.l ≠ l) :
    cancelRetireReply l s =
      { result := .ok, payload := be1 r.origin.number ++ be1 r.retry ++ be4 r.enqueued.toNat
        after := s.setMig { s.mig with waiting := before ++ after } } := by
  have passed : ∀ b ∈ before, ¬(b.l == l) = true := fun b hb => by simpa using first b hb
  have here : (r.l == l) = true := by simpa using named
  have found : s.mig.waiting.find? (fun r => r.l == l) = some r := by
    rw [waiting, List.find?_append, List.find?_eq_none.mpr passed, List.find?_cons_of_pos (by exact here)]
    rfl
  have erased : s.mig.waiting.eraseP (fun r => r.l == l) = before ++ after := by
    rw [waiting, List.eraseP_append_right _ passed, List.eraseP_cons_of_pos (by exact here)]
  rw [cancelRetireReply, if_neg (Nat.not_le.mpr below), found, erased]

end Retire

/-- Settles O28: `exec_reply`, with the reply of each check. -/
theorem retireAndCancelCommands : Obligations.RetireAndCancelCommands := by
  unfold Obligations.RetireAndCancelCommands
  intro args s h length
  have retire : ∀ {r : Reply}, retireReply (ofBe args) s = r → _ := fun {r} =>
    exec_reply (c := .retire) (r := r) h (by decide) length (by decide)
  have cancel : ∀ {r : Reply}, cancelRetireReply (ofBe args) s = r → _ := fun {r} =>
    exec_reply (c := .cancelRetire) (r := r) h (by decide) length (by decide)
  refine ⟨fun beyond => retire (retireReply_range beyond), fun below held => retire (retireReply_already below held),
    fun below free full => retire (retireReply_full below free full),
    fun below free room => retire (retireReply_ok below free room),
    fun beyond => cancel (cancelRetireReply_range beyond), fun below none => cancel (cancelRetireReply_none below none),
    fun before after r below waiting named first => cancel (cancelRetireReply_ok below waiting named first)⟩

/-! ### ABORT_MIGRATION (R90) -/

theorem exec_abortMigration {s : State} {r : Reply} (h : s.accepts) (reply : abortReply s = r) :
    exec (.abortMigration []) s = .next (r.after.answered .abortMigration 0 r.result r.payload) :=
  exec_reply (c := .abortMigration) h (by decide) rfl (by decide) reply

section Abort
variable {s : State}

theorem abortReply_idle (context : s.mig.context = .idle) : abortReply s = s.refuse .none := by
  rw [abortReply.eq_def, context]

theorem abortReply_finishing {m : Move} (context : s.mig.context = .finishing m) : abortReply s = s.refuse .tooLate := by
  rw [abortReply.eq_def, context]

theorem abortReply_copying {m : Move} {p : Nat} {lock : Option Lock} (context : s.mig.context = .copying m p lock) :
    abortReply s =
      { result := .ok, payload := be3 m.req.l ++ be1 m.target ++ be1 p
        after := (s.stopMove m lock (.migAborted m.req.l .manual)).toIdle } := by
  rw [abortReply.eq_def, context]

end Abort

/-- Settles O29: in COPYING the abort stops the migration as a copy read timeout does. -/
theorem abortMigrationCommand : Obligations.AbortMigrationCommand := by
  unfold Obligations.AbortMigrationCommand
  intro s h
  refine ⟨fun context => exec_abortMigration h (abortReply_idle context),
    fun m context => exec_abortMigration h (abortReply_finishing context), fun m p lock context => ?_⟩
  have stopped := s.stopMove_moveStopped m lock (.migAborted m.req.l .manual)
  exact ⟨_, exec_abortMigration h (abortReply_copying context), stopped.table, stopped.mig, stopped.recs, stopped.unlocked,
    stopped.returned, stopped.rest⟩

/-! ### READ_MIGRATION (R92, R201) -/

theorem be1_zero : be1 0 = [0#8] := by decide

theorem be1_one : be1 1 = [1#8] := by decide

theorem be1_two : be1 2 = [2#8] := by decide

section ReadMigration
variable {s : State}

theorem exec_readMigration {r : Reply} (h : s.accepts) (reply : readContextReply s = r) :
    exec (.readMigration []) s = .next (r.after.answered .readMigration 0 r.result r.payload) :=
  exec_reply (c := .readMigration) h (by decide) rfl (by decide) reply

theorem exec_readMigration_waiting {b : Byte} {r : Reply} (h : s.accepts) (reply : readWaitingReply b.toNat s = r) :
    exec (.readMigration [b]) s = .next (r.after.answered .readMigration 1 r.result r.payload) :=
  exec_reply (c := .readMigration) (args := [b]) h (by decide) rfl (by simp [Command.lengths])
    (by rw [← reply, ← ofBe_singleton b]; rfl)

theorem readContextReply_idle (context : s.mig.context = .idle) :
    readContextReply s = s.report
      (List.replicate 9 0#8 ++ [0xFF#8, 0xFF#8] ++ List.replicate 10 0#8 ++ be1 s.mig.waiting.length ++
        be1 s.mig.occupancy ++ be1 (s.mig.waiting.countP fun r => deferred s.table r.l)) := by
  rw [readContextReply.eq_def, context]
  rfl

theorem readContextReply_copying {m : Move} {p : Nat} {lock : Option Lock} (context : s.mig.context = .copying m p lock) :
    readContextReply s = s.report
      ([1#8] ++ moveBytes m p lock ++ be1 s.mig.waiting.length ++ be1 s.mig.occupancy ++
        be1 (s.mig.waiting.countP fun r => deferred s.table r.l)) := by
  rw [readContextReply.eq_def, context, show be1 (Context.copying m p lock).number = [1#8] from be1_one]

theorem readContextReply_finishing {m : Move} (context : s.mig.context = .finishing m) :
    readContextReply s = s.report
      ([2#8] ++ moveBytes m 64 none ++ be1 s.mig.waiting.length ++ be1 s.mig.occupancy ++
        be1 (s.mig.waiting.countP fun r => deferred s.table r.l)) := by
  rw [readContextReply.eq_def, context, show be1 (Context.finishing m).number = [2#8] from be1_two]
  rfl

theorem readWaitingReply_range {k : Nat} (beyond : 7 < k) : readWaitingReply k s = s.refuse .range := if_pos beyond

theorem readWaitingReply_none {k : Nat} (low : k ≤ 7) (short : s.mig.waiting.length ≤ k) :
    readWaitingReply k s = s.refuse .none := by
  rw [readWaitingReply, if_neg (Nat.not_lt.mpr low), List.getElem?_eq_none short]

theorem moveBytes_eq (m : Move) (p : Nat) (lock : Option Lock) :
    moveBytes m p lock =
      be3 m.req.l ++ be3 m.source ++ be1 m.target ++ be1 p ++
        (match lock with
          | none => [0xFF#8, 0xFF#8]
          | some .claimed => be1 p ++ [0#8]
          | some (.reading _) => be1 p ++ [1#8]
          | some (.writing _ _) => be1 p ++ [2#8]) ++
        be1 m.req.retry ++
        (match m.req.origin with
          | .auto b => [0#8] ++ be3 b ++ [1#8]
          | .manual => [1#8, 0#8, 0#8, 0#8, 0#8]) ++
        be4 m.req.enqueued.toNat := by
  unfold moveBytes
  cases lock with
  | none => cases m.req.origin <;> simp [Origin.number, Origin.trigger?, flagBit, be1, be3, byteOf]
  | some phase =>
    cases phase <;> cases m.req.origin <;>
      simp [Origin.number, Origin.trigger?, Lock.number, flagBit, be1, be3, byteOf]

theorem waitingFlags_eq (r : RetireRequest) (pending : Bool) :
    be1 r.origin.number ++ be1 (flagBit r.origin.trigger?.isSome 0 + flagBit pending 1) ++
        be3 (r.origin.trigger?.getD 0) =
      (match r.origin with
        | .auto _ => [0#8] ++ be1 (1 + if pending then 2 else 0)
        | .manual => [1#8] ++ be1 (if pending then 2 else 0)) ++
      (match r.origin with
        | .auto p => be3 p
        | .manual => [0#8, 0#8, 0#8]) := by
  cases r.origin <;> simp [Origin.number, Origin.trigger?, flagBit, be1, be3, byteOf]

theorem readWaitingReply_ok {k : Nat} {r : RetireRequest} (low : k ≤ 7) (waiting : s.mig.waiting[k]? = some r) :
    readWaitingReply k s = s.report
      (be1 k ++ be3 r.l ++
        (be1 r.origin.number ++ be1 (flagBit r.origin.trigger?.isSome 0 + flagBit (deferred s.table r.l) 1) ++
          be3 (r.origin.trigger?.getD 0)) ++ be1 r.retry ++ be4 r.enqueued.toNat) := by
  rw [readWaitingReply, if_neg (Nat.not_lt.mpr low), waiting]
  simp only [List.append_assoc]

end ReadMigration

/-- Settles O30: `exec_reply`, with the payload of each context. -/
theorem readMigrationCommand : Obligations.ReadMigrationCommand := by
  unfold Obligations.ReadMigrationCommand
  intro s h
  refine ⟨fun idle => exec_readMigration h (readContextReply_idle idle), fun m p lock copying => ?_, fun m finishing => ?_,
    fun b beyond => exec_readMigration_waiting h (readWaitingReply_range beyond),
    fun b low short => exec_readMigration_waiting h (readWaitingReply_none low short), fun b r low found => ?_⟩
  · have run := exec_readMigration h (readContextReply_copying copying)
    rw [moveBytes_eq] at run
    simp only [List.append_assoc] at run ⊢
    exact run
  · have run := exec_readMigration h (readContextReply_finishing finishing)
    rw [moveBytes_eq] at run
    simp only [List.append_assoc] at run ⊢
    exact run
  · have run := exec_readMigration_waiting h (readWaitingReply_ok low found)
    rw [waitingFlags_eq, be1_toNat] at run
    simp only [List.append_assoc] at run ⊢
    exact run

end Sys2Proof.Machine
end

section
/-! The commands of the error watch unit, the map unit and the fuse unit (R20, R21, R116 to R118, R160, R161, R169). -/

namespace Sys2Proof.Machine

/-- A part that accepts commands answers one with one argument byte by its owning rule's reply. -/
theorem exec_byteReply {c : Command} {b : Byte} {s : State} {r : Reply} (h : s.accepts) (one : c.lengths = [1])
    (notRead : c ≠ .resultRead) (reply : c.reply [b] [] s = r) :
    exec (c.instr [b]) s = .next (r.after.answered c 1 r.result r.payload) :=
  exec_reply h notRead rfl (by rw [one]; exact List.mem_singleton_self 1) reply

/-! ### READ_SUSPECT, CLEAR_SUSPECT, REARM (R116 to R118) -/

section Suspects
variable {s : State} {i p : Nat} {e : Suspect}

theorem exec_readSuspect {b : Byte} {r : Reply} (h : s.accepts) (reply : readSuspectReply b.toNat s = r) :
    exec (.readSuspect [b]) s = .next (r.after.answered .readSuspect 1 r.result r.payload) :=
  exec_byteReply (c := .readSuspect) h rfl (by decide) (by rw [← reply, ← ofBe_singleton b]; rfl)

theorem exec_clearSuspect {args : List Byte} {r : Reply} (h : s.accepts) (length : args.length = 3)
    (reply : clearSuspectReply (ofBe args) s = r) :
    exec (.clearSuspect args) s = .next (r.after.answered .clearSuspect 3 r.result r.payload) :=
  exec_reply (c := .clearSuspect) h (by decide) length (by decide) reply

theorem exec_rearm {args : List Byte} {r : Reply} (h : s.accepts) (length : args.length = 3)
    (reply : rearmReply (ofBe args) s = r) :
    exec (.rearm args) s = .next (r.after.answered .rearm 3 r.result r.payload) :=
  exec_reply (c := .rearm) h (by decide) length (by decide) reply

theorem State.suspect?_eq {o : Option Suspect} (h : s.watch.suspects[i]? = some o) : s.suspect? i = o := by
  rw [State.suspect?, List.getD_eq_getElem?_getD, h]
  rfl

theorem Suspect.flags_eq (e : Suspect) :
    e.flags = (if e.ceFired then 1 else 0) + (if e.ueFired then 2 else 0) + (if e.denied then 4 else 0) := by
  simp [Suspect.flags, flagBit]

theorem readSuspectReply_range (beyond : 31 < i) : readSuspectReply i s = s.refuse .range := if_pos beyond

theorem readSuspectReply_none (low : i ≤ 31) (free : s.watch.suspects[i]? = some none) :
    readSuspectReply i s = s.refuse .none := by
  rw [readSuspectReply, if_neg (Nat.not_lt.mpr low), State.suspect?_eq free]

theorem readSuspectReply_ok (low : i ≤ 31) (found : s.watch.suspects[i]? = some (some e)) {l : Option Nat} {number : Nat}
    (served : (s.classify e.block).served? = l) (numbered : (s.classify e.block).number = number) :
    readSuspectReply i s = s.report
      (be1 i ++ be4 s.clock.epoch.toNat ++ be3 e.block ++ be1 e.ce ++ be1 e.ue ++ be4 e.first.toNat ++ be4 e.last.toNat ++
        be1 ((if e.ceFired then 1 else 0) + (if e.ueFired then 2 else 0) + (if e.denied then 4 else 0) +
          (if l.isSome then 8 else 0)) ++ be1 number ++ be3 (l.getD 0)) := by
  rw [readSuspectReply, if_neg (Nat.not_lt.mpr low), State.suspect?_eq found]
  simp only [served, numbered, Suspect.flags_eq]
  rfl

theorem clearSuspectReply_range (beyond : s.capacityBlocks ≤ p) : clearSuspectReply p s = s.refuse .range := if_pos beyond

theorem rearmReply_range (beyond : s.capacityBlocks ≤ p) : rearmReply p s = s.refuse .range := if_pos beyond

theorem clearSuspectReply_none (inside : p < s.capacityBlocks) (absent : p ∉ s.watch.blocks) :
    clearSuspectReply p s = s.refuse .none := by
  rw [clearSuspectReply, if_neg (Nat.not_le.mpr inside), suspectPos_none absent]

theorem rearmReply_none (inside : p < s.capacityBlocks) (absent : p ∉ s.watch.blocks) :
    rearmReply p s = s.refuse .none := by
  rw [rearmReply, if_neg (Nat.not_le.mpr inside), suspectPos_none absent]

theorem clearSuspectReply_ok (inside : p < s.capacityBlocks) (distinct : s.watch.blocks.Nodup)
    (found : s.watch.suspects[i]? = some (some e)) (named : e.block = p) :
    clearSuspectReply p s =
      { result := .ok, payload := be1 e.ce ++ be1 e.ue ++ be1 e.flags
        after := { s with watch := { s.watch with suspects := s.watch.suspects.set i none, fullReported := false } } } := by
  have pos := suspectPos_of_nodup distinct found named
  rw [clearSuspectReply, if_neg (Nat.not_le.mpr inside), pos]
  simp only [State.suspect?_eq found, State.freeSuspect, pos]

theorem rearmReply_ok (inside : p < s.capacityBlocks) (distinct : s.watch.blocks.Nodup)
    (found : s.watch.suspects[i]? = some (some e)) (named : e.block = p) :
    rearmReply p s = { result := .ok, payload := [], after := s.setSuspect i e.rearmed } := by
  have pos := suspectPos_of_nodup distinct found named
  rw [rearmReply, if_neg (Nat.not_le.mpr inside), pos]
  simp only [State.suspect?_eq found]

end Suspects

/-- Settles O35: `exec_byteReply` and `exec_reply`, with the reply of each check. -/
theorem suspectCommands : Obligations.SuspectCommands := by
  unfold Obligations.SuspectCommands
  refine ⟨fun b s h beyond => exec_readSuspect h (readSuspectReply_range beyond),
    fun b s h low free => exec_readSuspect h (readSuspectReply_none low free), ?_, ?_⟩
  · intro b e number l s h low found row
    have classified : (s.classify e.block).served? = l ∧ (s.classify e.block).number = number := by
      obtain ⟨x, c, rfl, rfl⟩ | ⟨c, rfl, rfl⟩ | ⟨k, c, rfl, rfl⟩ | ⟨k, c, rfl, rfl⟩ | ⟨k, x, c, rfl, rfl⟩ |
        ⟨k, c, rfl, rfl⟩ := row <;> rw [c] <;> exact ⟨rfl, rfl⟩
    obtain ⟨served, numbered⟩ := classified
    have run := exec_readSuspect h (readSuspectReply_ok low found served numbered)
    rwa [be1_toNat] at run
  · intro args s h length distinct
    refine ⟨fun beyond => ⟨exec_clearSuspect h length (clearSuspectReply_range beyond),
      exec_rearm h length (rearmReply_range beyond)⟩,
      fun inside absent => ⟨exec_clearSuspect h length (clearSuspectReply_none inside absent),
        exec_rearm h length (rearmReply_none inside absent)⟩,
      fun i e inside found named => ⟨?_, exec_rearm h length (rearmReply_ok inside distinct found named)⟩⟩
    have run := exec_clearSuspect h length (clearSuspectReply_ok inside distinct found named)
    rwa [Suspect.flags_eq] at run

/-! ### COMMIT_HARD and COMMIT_BAN (R160, R161) -/

section Commits
variable {s : State} {k ptr : Nat}

theorem exec_commitHard {b : Byte} {r : Reply} (h : s.accepts) (reply : commitHardReply b.toNat s = r) :
    exec (.commitHard [b]) s = .next (r.after.answered .commitHard 1 r.result r.payload) :=
  exec_byteReply (c := .commitHard) h rfl (by decide) (by rw [← reply, ← ofBe_singleton b]; rfl)

theorem exec_commitBan {b : Byte} {r : Reply} (h : s.accepts) (reply : commitBanReply b.toNat s = r) :
    exec (.commitBan [b]) s = .next (r.after.answered .commitBan 1 r.result r.payload) :=
  exec_byteReply (c := .commitBan) h rfl (by decide) (by rw [← reply, ← ofBe_singleton b]; rfl)

theorem State.commitCheck_busy (busy : s.fuse.programmer ≠ .idle) : s.commitCheck k = .error .busy := if_pos busy

theorem State.commitCheck_locked (idle : s.fuse.programmer = .idle) (low : s.fwe = false) :
    s.commitCheck k = .error .locked := by
  rw [State.commitCheck, if_neg (not_not_intro idle), if_pos low]

theorem State.commitCheck_eq (idle : s.fuse.programmer = .idle) (high : s.fwe = true) (pointer : s.fuse.appendPtr = some ptr) :
    s.commitCheck k = if 32 ≤ ptr then .error .noSlot else if 128 ≤ k then .error .range else .ok ptr := by
  rw [State.commitCheck, if_neg (not_not_intro idle), if_neg (by rw [high]; decide), pointer]
  rfl

theorem commitHardReply_error {r : ResultCode} (check : s.commitCheck k = .error r) :
    commitHardReply k s = s.refuse r := by
  rw [commitHardReply, check]

theorem commitBanReply_error {r : ResultCode} (check : s.commitCheck k = .error r) : commitBanReply k s = s.refuse r := by
  rw [commitBanReply, check]

theorem commitHardReply_state (check : s.commitCheck k = .ok ptr) (notSoft : ∀ l p, entryAt s.table k ≠ .soft l p) :
    commitHardReply k s = s.refuse .state := by
  rw [commitHardReply, check]
  cases entry : entryAt s.table k with
  | soft l p => exact absurd entry (notSoft l p)
  | free | reserved | hard | retired => rfl

theorem commitHardReply_busy {l : Nat} {p : Bool} (check : s.commitCheck k = .ok ptr) (entry : entryAt s.table k = .soft l p)
    (busy : p = true ∨ l ∈ s.mig.blocks) : commitHardReply k s = s.refuse .busy := by
  rw [commitHardReply, check]
  simp only [entry]
  cases p with
  | true => rfl
  | false => exact if_pos (MigrationUnit.holds_iff.mpr (busy.resolve_left Bool.false_ne_true))

theorem commitHardReply_accepted {l : Nat} (check : s.commitCheck k = .ok ptr) (entry : entryAt s.table k = .soft l false)
    (free : l ∉ s.mig.blocks) :
    commitHardReply k s =
      { result := .accepted, payload := be1 ptr ++ [0#8] ++ be3 l ++ be1 k
        after := (s.setProgrammer (.programming ptr (.map l k) 0 0#40)).setEntry k (.soft l true) } := by
  rw [commitHardReply, check]
  simp only [entry]
  rw [if_neg Bool.false_ne_true, if_neg (mt MigrationUnit.holds_iff.mp free), State.acceptCommit]
  simp only [FuseRecord.spare, FuseRecord.kind, FuseKind.number, entry, be1_zero]
  rfl

theorem commitBanReply_state (check : s.commitCheck k = .ok ptr)
    (notRetired : ∀ l slot x p, entryAt s.table k ≠ .retired l slot x p) : commitBanReply k s = s.refuse .state := by
  rw [commitBanReply, check]
  cases entry : entryAt s.table k with
  | retired l slot x p => exact absurd entry (notRetired l slot x p)
  | free | reserved | hard | soft => rfl

theorem commitBanReply_already {l slot : Option Nat} {p : Bool} (check : s.commitCheck k = .ok ptr)
    (entry : entryAt s.table k = .retired l slot true p) : commitBanReply k s = s.refuse .already := by
  rw [commitBanReply, check]
  simp only [entry]
  rfl

theorem commitBanReply_accepted {l slot : Option Nat} {p : Bool} (check : s.commitCheck k = .ok ptr)
    (entry : entryAt s.table k = .retired l slot false p) :
    commitBanReply k s =
      { result := .accepted, payload := be1 ptr ++ [1#8, 0#8, 0#8, 0#8] ++ be1 k
        after := (s.setProgrammer (.programming ptr (.ban k) 0 0#40)).setEntry k (.retired l slot false true) } := by
  rw [commitBanReply, check]
  simp only [entry]
  rw [if_neg Bool.false_ne_true, State.acceptCommit]
  simp only [FuseRecord.spare, FuseRecord.kind, FuseKind.number, entry, be1_one]
  rfl

end Commits

/-- Settles O41: the checks common to both commits, then the entry's state. -/
theorem commitCommands : Obligations.CommitCommands := by
  unfold Obligations.CommitCommands
  intro b s h
  have refused : ∀ {r : ResultCode}, s.commitCheck b.toNat = .error r →
      exec (.commitHard [b]) s = .next (s.answered .commitHard 1 r []) ∧
        exec (.commitBan [b]) s = .next (s.answered .commitBan 1 r []) := fun check =>
    ⟨exec_commitHard h (commitHardReply_error check), exec_commitBan h (commitBanReply_error check)⟩
  refine ⟨fun busy => refused (State.commitCheck_busy busy), fun idle low => refused (State.commitCheck_locked idle low), ?_⟩
  intro ptr idle high pointer
  have check := State.commitCheck_eq (k := b.toNat) idle high pointer
  refine ⟨fun full => refused (by rw [check, if_pos full]),
    fun room beyond => refused (by rw [check, if_neg (Nat.not_le.mpr room), if_pos beyond]), fun room inside => ?_⟩
  rw [if_neg (Nat.not_le.mpr room), if_neg (Nat.not_le.mpr inside)] at check
  refine ⟨fun notSoft => exec_commitHard h (commitHardReply_state check notSoft),
    fun l p entry busy => exec_commitHard h (commitHardReply_busy check entry busy), fun l entry free => ?_,
    fun notRetired => exec_commitBan h (commitBanReply_state check notRetired),
    fun l k p entry => exec_commitBan h (commitBanReply_already check entry), fun l k p entry => ?_⟩
  · have run := exec_commitHard h (commitHardReply_accepted check entry free)
    rwa [be1_toNat] at run
  · have run := exec_commitBan h (commitBanReply_accepted check entry)
    rwa [be1_toNat] at run

/-! ### MAP_SOFT (R21) -/

section MapSoft
variable {s : State} {l k : Nat}

theorem exec_mapSoft {args : List Byte} {r : Reply} (h : s.accepts) (length : args.length = 4)
    (reply : mapSoftReply (ofBe (args.take 3)) (ofBe (args.drop 3)) s = r) :
    exec (.mapSoft args) s = .next (r.after.answered .mapSoft 4 r.result r.payload) :=
  exec_reply (c := .mapSoft) h (by decide) length (by decide) reply

theorem State.spareInFlight_iff : s.spareInFlight k = true ↔ ∃ x ∈ s.arb.outstanding, x.2.block = s.limit + k := by
  simp [State.spareInFlight, State.blockInFlight]

theorem mapSoftReply_range (beyond : s.limit ≤ l ∨ 128 ≤ k) : mapSoftReply l k s = s.refuse .range := if_pos beyond

/-- Arguments in their ranges pass the first check. -/
theorem mapSoft_inRange (block : l < s.limit) (spare : k < 128) : ¬(s.limit ≤ l ∨ Config.spares ≤ k) :=
  not_or.mpr ⟨Nat.not_le.mpr block, not_spares_le spare⟩

theorem mapSoftReply_notFree (block : l < s.limit) (spare : k < 128) (other : entryAt s.table k ≠ .free) :
    mapSoftReply l k s = s.refuse .state := by
  rw [mapSoftReply, if_neg (mapSoft_inRange block spare), if_pos other]

theorem mapSoftReply_busy (block : l < s.limit) (spare : k < 128) (free : entryAt s.table k = .free)
    (busy : (∃ x ∈ s.arb.outstanding, x.2.block = s.limit + k) ∨ l ∈ s.mig.blocks) :
    mapSoftReply l k s = s.refuse .busy := by
  rw [mapSoftReply, if_neg (mapSoft_inRange block spare), if_neg (not_not_intro free)]
  by_cases traffic : s.spareInFlight k = true
  · rw [if_pos traffic]
  · rw [if_neg traffic, if_pos (MigrationUnit.holds_iff.mpr (busy.resolve_left (mt State.spareInFlight_iff.mpr traffic)))]

/-- With a spare that may be taken and L not held, the entry that serves L decides. -/
theorem mapSoftReply_eq (block : l < s.limit) (spare : k < 128) (target : s.mayBeTarget k) (free : l ∉ s.mig.blocks) :
    mapSoftReply l k s =
      if (softFor s.table l).isSome then s.refuse .state
      else
        { result := .ok, payload := be1 k ++ be1 ((hardFor s.table l).getD 255)
          after := { s with table := mapSoftTable s.table l k } } := by
  obtain ⟨entry, quiet⟩ := target
  have noTraffic : ¬s.spareInFlight k = true := fun traffic => by
    obtain ⟨x, hx, named⟩ := State.spareInFlight_iff.mp traffic
    exact quiet x hx named
  rw [mapSoftReply, if_neg (mapSoft_inRange block spare), if_neg (not_not_intro entry), if_neg noTraffic,
    if_neg (mt MigrationUnit.holds_iff.mp free)]

theorem softFor_of_unserved {t : List Entry} (unserved : ∀ e ∈ t, e.serves? ≠ some l) :
    softFor t l = none ∧ hardFor t l = none :=
  ⟨softFor_eq_none.mpr fun _ hp => unserved _ hp rfl, hardFor_eq_none.mpr fun _ hp => unserved _ hp rfl⟩

/-- The HARD entry that serves a block is the one found, and no SOFT entry serves it. -/
theorem hardFor_of_nodup {t : List Entry} (distinct : (t.filterMap Entry.serves?).Nodup) {j slot : Nat}
    (entry : entryAt t j = .hard l slot) : softFor t l = none ∧ hardFor t l = some j := by
  have one := serves_nodup_iff.mp distinct
  have here : serves t j l := by rw [serves, entry]; rfl
  constructor
  · cases found : softFor t l with
    | none => rfl
    | some i =>
      obtain ⟨-, p, soft⟩ := entryAt_of_softFor found
      have same := one i j l (by rw [serves, soft]; rfl) here
      rw [same, entry] at soft
      cases soft
  · cases found : hardFor t l with
    | none => exact absurd (entry ▸ entryAt_mem (serves_lt here)) (hardFor_eq_none.mp found slot)
    | some i =>
      obtain ⟨-, p, hard⟩ := entryAt_of_hardFor found
      rw [one i j l (by rw [serves, hard]; rfl) here]

end MapSoft

/-- Settles O45: the reply of each check, then the table by the entry that serves the block. -/
theorem mapSoftCommand : Obligations.MapSoftCommand := by
  unfold Obligations.MapSoftCommand
  rintro args l k s h length rfl rfl distinct table
  refine ⟨fun beyond => exec_mapSoft h length (mapSoftReply_range beyond),
    fun block spare other => exec_mapSoft h length (mapSoftReply_notFree block spare other),
    fun block spare free busy => exec_mapSoft h length (mapSoftReply_busy block spare free busy),
    fun block spare target free soft => ?_, fun block spare target free unserved => ?_,
    fun j slot block spare target free inside entry => ?_⟩
  · obtain ⟨p, soft⟩ := soft
    have some : (softFor s.table (ofBe (args.take 3))).isSome = true := by
      rw [Option.isSome_iff_ne_none, ne_eq, softFor_eq_none]
      exact fun none => none p soft
    exact exec_mapSoft h length ((mapSoftReply_eq block spare target free).trans (if_pos some))
  · obtain ⟨noSoft, noHard⟩ := softFor_of_unserved unserved
    have run := exec_mapSoft h length (mapSoftReply_eq block spare target free)
    rw [noSoft, noHard, mapSoftTable, noHard] at run
    exact run
  · obtain ⟨noSoft, hard⟩ := hardFor_of_nodup distinct entry
    have run := exec_mapSoft h length (mapSoftReply_eq block spare target free)
    rw [noSoft, hard, mapSoftTable, hard] at run
    simp only [entry] at run
    exact run

/-! ### READ_MAP (R20) -/

section ReadMap
variable {s : State} {k : Nat}

theorem exec_readMap {b : Byte} {r : Reply} (h : s.accepts) (reply : readMapReply b.toNat s = r) :
    exec (.readMap [b]) s = .next (r.after.answered .readMap 1 r.result r.payload) :=
  exec_byteReply (c := .readMap) h rfl (by decide) (by rw [← reply, ← ofBe_singleton b]; rfl)

theorem readMapReply_range (beyond : 128 ≤ k) : readMapReply k s = s.refuse .range := if_pos beyond

theorem readMapReply_ok (inside : k < 128) :
    readMapReply k s = s.report
      (be1 k ++ be3 (s.limit + k) ++ be1 (entryAt s.table k).number ++ be1 ((entryAt s.table k).flags (s.spareInFlight k)) ++
        be3 ((entryAt s.table k).l?.getD 0) ++ be1 ((entryAt s.table k).slot?.getD 0)) := by
  rw [readMapReply, if_neg (not_spares_le inside)]

/-- The flag byte of an entry is the sum of its own flags and the traffic flag. -/
theorem Entry.flags_eq (e : Entry) (traffic : Bool) : e.flags traffic = e.flags false + if traffic then 16 else 0 := by
  simp [Entry.flags, flagBit]

theorem Entry.flags_soft (l : Nat) (p : Bool) : (Entry.soft l p).flags false = 1 + if p then 8 else 0 := by
  cases p <;> rfl

theorem Entry.flags_retired (l slot : Option Nat) (banned p : Bool) :
    (Entry.retired l slot banned p).flags false =
      (if l.isSome then 1 else 0) + (if slot.isSome then 2 else 0) + (if banned then 4 else 0) + if p then 8 else 0 := by
  simp only [Entry.flags, flagBit]
  rfl

end ReadMap

/-! ### READ_FUSE (R169) -/

section ReadFuse
variable {s : State} {k : Nat} {i : SlotImage}

theorem exec_readFuse {b : Byte} {r : Reply} (h : s.accepts) (reply : readFuseReply b.toNat s = r) :
    exec (.readFuse [b]) s = .next (r.after.answered .readFuse 1 r.result r.payload) :=
  exec_byteReply (c := .readFuse) h rfl (by decide) (by rw [← reply, ← ofBe_singleton b]; rfl)

theorem readFuseReply_range (beyond : 31 < k) : readFuseReply k s = s.refuse .range := if_pos beyond

theorem readFuseReply_ok (low : k ≤ 31) (image : s.fuse.images[k]? = some (some i)) :
    readFuseReply k s = s.report
      (be1 k ++ fuseBytes i.bits ++ be1 i.kind.number ++ i.kind.causeByte ++
        be1 (i.flags (s.fuse.programmer.slot? == some k)) ++ i.fields ++ s.appendByte ++ be1 s.fuse.programmer.number) := by
  have here : s.imageOf k = i := by
    rw [State.imageOf, List.getD_eq_getElem?_getD, image]
    rfl
  rw [readFuseReply, if_neg (Nat.not_lt.mpr low), here]

theorem fuseBytes_eq (w : FuseWord) : fuseBytes w = be1 (w.toNat / 4294967296) ++ be4 w.toNat := by
  have byte : ∀ i, w.extractLsb' (8 * i) 8 = byteOf w.toNat i := fun i => by
    apply BitVec.eq_of_toNat_eq
    simp [byteOf, BitVec.extractLsb'_toNat, Nat.shiftRight_eq_div_pow, Nat.pow_mul]
  have top : byteOf (w.toNat / 4294967296) 0 = byteOf w.toNat 4 := by simp [byteOf]
  simp only [fuseBytes, be1, be4, top, ← byte]
  rfl

theorem SlotKind.bytes_eq (c : SlotKind) :
    be1 c.number ++ c.causeByte =
      match c with
      | .blank => [0#8, 0xFF#8]
      | .valid => [1#8, 0xFF#8]
      | .spoiled (.load .torn) => [2#8, 0#8]
      | .spoiled (.load .check) => [2#8, 1#8]
      | .spoiled (.load .range) => [2#8, 2#8]
      | .spoiled (.load .conflict) => [2#8, 3#8]
      | .spoiled .verify => [2#8, 4#8] := by
  rcases c with _ | _ | (_ | _ | _ | _) | _ <;> decide

theorem Programmer.number_byte (p : Programmer) :
    be1 p.number =
      match p with
      | .idle => [0#8]
      | .programming _ _ _ _ => [1#8]
      | .verifying _ _ _ => [2#8] := by
  cases p with
  | idle => exact be1_zero
  | programming => exact be1_one
  | verifying => exact be1_two

theorem SlotImage.flags_eq (i : SlotImage) (p : Bool) :
    i.flags p =
      (if i.kind = .valid ∧ i.applied ≠ none then 1 else 0) + (if i.kind = .valid ∧ i.applied = some true then 2 else 0) +
        (if i.bits.getLsbD 39 then 4 else 0) + if p then 8 else 0 := by
  simp [SlotImage.flags, flagBit, fuseMarker, Option.isSome_iff_ne_none]

theorem SlotImage.fields_eq (i : SlotImage) :
    i.fields =
      if i.bits.getLsbD 39 then
        be1 (if i.bits.getLsbD 38 then 1 else 0) ++ be3 (i.bits.toNat / 262144 % 1048576) ++
          be1 (i.bits.toNat / 2048 % 128)
      else [0#8, 0#8, 0#8, 0#8, 0#8] := by
  unfold SlotImage.fields fuseMarker
  split
  · simp only [fuseLOf, fuseSOf, fuseKindOf, BitVec.extractLsb'_toNat, Nat.shiftRight_eq_div_pow]
    cases i.bits.getLsbD 38 <;> rfl
  · rfl

end ReadFuse

/-- Settles O44: the payload of each form of entry and of slot image. -/
theorem readMapAndFuse : Obligations.ReadMapAndFuse := by
  unfold Obligations.ReadMapAndFuse
  constructor
  · intro b s h
    refine ⟨fun beyond => exec_readMap h (readMapReply_range beyond), fun traffic number flags l slot inside moving row => ?_⟩
    have run := exec_readMap h (readMapReply_ok inside)
    have flagged : (if s.spareInFlight b.toNat then 16 else 0) = traffic := by
      obtain ⟨some, rfl⟩ | ⟨none, rfl⟩ := moving
      · exact if_pos (State.spareInFlight_iff.mpr some)
      · exact if_neg fun some => by obtain ⟨x, hx, named⟩ := State.spareInFlight_iff.mp some; exact none x hx named
    have fields : (entryAt s.table b.toNat).number = number ∧ (entryAt s.table b.toNat).flags false = flags ∧
        (entryAt s.table b.toNat).l?.getD 0 = l ∧ (entryAt s.table b.toNat).slot?.getD 0 = slot := by
      obtain ⟨e, rfl, rfl, rfl, rfl⟩ | ⟨e, rfl, rfl, rfl⟩ | ⟨p, e, rfl, rfl, rfl⟩ | ⟨e, rfl, rfl⟩ |
        ⟨x, k, banned, p, e, rfl, rfl, rfl, rfl⟩ := row <;> rw [e]
      · exact ⟨rfl, rfl, rfl, rfl⟩
      · exact ⟨rfl, rfl, rfl, rfl⟩
      · exact ⟨rfl, Entry.flags_soft l p, rfl, rfl⟩
      · exact ⟨rfl, rfl, rfl, rfl⟩
      · exact ⟨rfl, Entry.flags_retired x k banned p, rfl, rfl⟩
    obtain ⟨hn, hf, hl, hs⟩ := fields
    rw [Entry.flags_eq, flagged, hn, hf, hl, hs, be1_toNat] at run
    exact run
  · intro b s h
    refine ⟨fun beyond => exec_readFuse h (readFuseReply_range beyond), fun i low image => ?_⟩
    have run := exec_readFuse h (readFuseReply_ok low image)
    rw [List.append_assoc (be1 b.toNat ++ fuseBytes i.bits), SlotKind.bytes_eq, fuseBytes_eq, SlotImage.flags_eq,
      SlotImage.fields_eq, be1_toNat] at run
    simp only [List.append_assoc, beq_iff_eq, State.appendByte, Programmer.number_byte] at run ⊢
    exact run

end Sys2Proof.Machine
end

section
/-! The status and result reads and the parameters (R98, R132, R176 to R193, R202). -/

namespace Sys2Proof.Machine

theorem be1_eq (n : Nat) : be1 n = [BitVec.ofNat 8 n] := by
  rw [be1, byteOf, Nat.pow_zero, Nat.div_one]

/-! ### An event taken together with GET_STATUS (R187) -/

/-- What an event of a unit leaves is what the straddle test takes of it; a message discarded leaves the state. -/
theorem eventEffect_of_exec {c : Instr} {s u : State} (notOn : ∀ straps p m, c ≠ .powerOn straps p m)
    (notOff : c ≠ .powerLoss) (notMalformed : ∀ n msi, c ≠ .malformedFrame n msi)
    (notUnknown : ∀ code args, c ≠ .unknownCommand code args) (notRead : ∀ args n, c ≠ .resultRead args n)
    (notCommand : ∀ d args units, c ≠ Command.instr d args units) (run : exec c s = .next u) :
    eventEffect c s = some u ∨ (eventEffect c s = none ∧ u = s) := by
  have out := fun (v : State) (h : Host.Outcome.next v = exec c s) => Host.Outcome.next.inj (h.trans run)
  cases c with
  | powerOn straps p m => exact absurd rfl (notOn straps p m)
  | powerLoss => exact absurd rfl notOff
  | malformedFrame n msi => exact absurd rfl (notMalformed n msi)
  | unknownCommand code args => exact absurd rfl (notUnknown code args)
  | resultRead args n => exact absurd rfl (notRead args n)
  | getStatus frame => exact absurd rfl (notCommand .getStatus frame.args frame.ahead)
  | getParam args => exact absurd rfl (notCommand .getParam args [])
  | setParam args => exact absurd rfl (notCommand .setParam args [])
  | readMap args => exact absurd rfl (notCommand .readMap args [])
  | mapSoft args => exact absurd rfl (notCommand .mapSoft args [])
  | unmapSoft args => exact absurd rfl (notCommand .unmapSoft args [])
  | banSpare args => exact absurd rfl (notCommand .banSpare args [])
  | retire args => exact absurd rfl (notCommand .retire args [])
  | cancelRetire args => exact absurd rfl (notCommand .cancelRetire args [])
  | abortMigration args => exact absurd rfl (notCommand .abortMigration args [])
  | readMigration args => exact absurd rfl (notCommand .readMigration args [])
  | readSuspect args => exact absurd rfl (notCommand .readSuspect args [])
  | clearSuspect args => exact absurd rfl (notCommand .clearSuspect args [])
  | rearm args => exact absurd rfl (notCommand .rearm args [])
  | readFaults args => exact absurd rfl (notCommand .readFaults args [])
  | ackFaults args => exact absurd rfl (notCommand .ackFaults args [])
  | commitHard args => exact absurd rfl (notCommand .commitHard args [])
  | commitBan args => exact absurd rfl (notCommand .commitBan args [])
  | readFuse args => exact absurd rfl (notCommand .readFuse args [])
  | upstreamOtherMessage | downstreamOtherMessage => exact .inr ⟨rfl, (out _ rfl).symm⟩
  | _ => exact .inl (congrArg some (out _ rfl))

theorem State.withEvent_of_event {s u : State} {c : Instr} {rest : List Instr} (pending : s.pending = c :: rest)
    (event : eventEffect c s = some u ∨ (eventEffect c s = none ∧ u = s)) (now : u.clock.now = s.clock.now) :
    s.withEvent = u := by
  unfold State.withEvent
  rw [pending]
  obtain event | ⟨event, rfl⟩ := event
  · simp only [event, if_pos now]
  · simp only [event]

theorem State.withEvent_of_empty {s : State} (pending : s.pending = []) : s.withEvent = s := by
  unfold State.withEvent
  rw [pending]

/-! ### GET_STATUS (R187, R188, R201) -/

theorem exec_getStatus {s : State} (frames : s.takesFrames) (ahead : List StatusUnit) :
    exec (.getStatus { args := [], ahead := ahead }) s =
      .next (s.answered .getStatus 0 .ok (statusBytes fun x => if x ∈ ahead then s.withEvent else s)) :=
  congrArg Host.Outcome.next
    (command_runs (c := .getStatus) (args := []) (run := getStatusReply ahead) frames (.inr rfl) (by decide))

theorem State.statusView_of_ready {s : State} (ready : s.fuse.part = .ready) : s.statusView = s := by
  simp [State.statusView, State.isReady, ready]

theorem State.statusView_of_loading {s : State} (loading : s.fuse.part = .loading) :
    s.statusView = State.atRise s.fuseArray s.prstN s.fwe s.port.mcs s.pending := by
  simp [State.statusView, State.isReady, loading]

theorem State.appendByte_eq {s : State} {ptr : List Byte}
    (h : (∃ n, s.fuse.appendPtr = some n ∧ ptr = be1 n) ∨ (s.fuse.appendPtr = none ∧ ptr = [0xFF#8])) :
    s.appendByte = ptr := by
  obtain ⟨n, pointer, rfl⟩ | ⟨pointer, rfl⟩ := h <;> rw [State.appendByte, pointer]
  · rfl
  · decide

theorem MigrationUnit.items_eq (m : MigrationUnit) :
    m.items =
      (match m.context with
        | .idle => [0#8, 0#8, 0#8, 0#8, 0#8]
        | .copying m p _ => [1#8] ++ be3 m.req.l ++ be1 p
        | .finishing m => [2#8] ++ be3 m.req.l ++ [64#8]) ++ be1 m.occupancy := by
  unfold MigrationUnit.items Context.statusBytes
  cases m.context with
  | idle => rfl
  | copying => simp only [Context.number, be1_one, List.append_assoc]
  | finishing => simp only [Context.number, be1_two, List.append_assoc, show be1 Config.quads = [64#8] by decide]

theorem RecordUnit.items_eq (r : RecordUnit) :
    r.items =
      be1 r.queue.length ++
        (match r.queue with
          | [] => [0#8, 0#8]
          | x :: _ => be2 x.seq.toNat) ++ be2 r.nextSeq.toNat ++ be1 r.missed := by
  unfold RecordUnit.items RecordUnit.oldest
  cases r.queue with
  | nil => rfl
  | cons => rfl

theorem RequestUnit.orphans_eq (r : RequestUnit) :
    r.orphans = r.slots.countP fun x => x.any fun y => y.state == .orphan := by
  unfold RequestUnit.orphans
  congr 1
  funext x
  cases x <;> rfl

section Rise
variable (f : List FuseWord) (prst fwe : Bool) (mcs : McsLine) (q : List Instr)

theorem mapItems_atRise : mapItems (State.atRise f prst fwe mcs q).table = [128#8] ++ List.replicate 5 0#8 := by
  simp [State.atRise, Config.spares, mapItems, countEntries, Entry.number, Entry.banned, be1, byteOf]

theorem migrationItems_atRise : (State.atRise f prst fwe mcs q).mig.items = List.replicate 6 0#8 := by
  simp [State.atRise, MigrationUnit.items_eq, MigrationUnit.occupancy, Context.active, Context.l?, be1, byteOf]

theorem recordItems_atRise : (State.atRise f prst fwe mcs q).recs.items = List.replicate 6 0#8 := by
  simp [State.atRise, RecordUnit.items_eq, be1, be2, byteOf]

/-- The counts of the last bytes. -/
theorem counts_atRise :
    be1 (State.atRise f prst fwe mcs q).watch.occupancy = [0#8] ∧
      be1 (State.atRise f prst fwe mcs q).req.inUse = [0#8] ∧ be1 (State.atRise f prst fwe mcs q).req.orphans = [0#8] ∧
      be2 (State.atRise f prst fwe mcs q).arb.outstanding.length = [0#8, 0#8] ∧
      be1 (State.atRise f prst fwe mcs q).patrol.state.number = [0#8] := by
  simp [State.atRise, WatchUnit.occupancy, RequestUnit.inUse, RequestUnit.orphans, PatrolState.number, List.countP_replicate, be1,
    be2, byteOf]

theorem flags_atRise :
    (State.atRise f prst fwe mcs q).recs.alertLow = false ∧ (State.atRise f prst fwe mcs q).recs.alertMissed = false ∧
      (State.atRise f prst fwe mcs q).watch.fullReported = false := ⟨rfl, rfl, rfl⟩

end Rise

theorem flagBit_false (i : Nat) : flagBit false i = 0 := rfl

theorem statusBytes_ready {src : StatusUnit → State} (ready : ∀ x, (src x).fuse.part = .ready) :
    statusBytes src =
      [1#8] ++ be4 (src .watch).clock.epoch.toNat ++
        be1 (flagBit (src .pin).prstN 0 + flagBit (src .fuse).fwe 1 + flagBit (src .records).recs.alertLow 2) ++
        mapItems (src .map).table ++ (src .migration).mig.items ++ (src .records).recs.items ++
        be1 (flagBit (src .records).recs.alertMissed 0 + flagBit (src .watch).watch.fullReported 1) ++
        be1 (src .fuse).fuse.programmer.number ++ (src .fuse).appendByte ++ be1 (src .watch).watch.occupancy ++
        be1 (src .request).req.inUse ++ be1 (src .request).req.orphans ++
        be2 (src .arbiter).arb.outstanding.length ++ be1 (src .patrol).patrol.state.number := by
  unfold statusBytes
  simp only [State.statusView_of_ready (ready _), ready .fuse, PartState.number, be1_one]

theorem statusBytes_loading {src : StatusUnit → State} (loading : ∀ x, (src x).fuse.part = .loading) :
    statusBytes src =
      [0#8] ++ be4 (src .watch).clock.epoch.toNat ++ be1 (flagBit (src .pin).prstN 0 + flagBit (src .fuse).fwe 1) ++
        [128#8] ++ List.replicate 18 0#8 ++ be1 (src .fuse).fuse.programmer.number ++ (src .fuse).appendByte ++
        List.replicate 6 0#8 := by
  unfold statusBytes
  simp only [State.statusView_of_loading (loading _), loading .fuse, PartState.number, be1_zero, mapItems_atRise,
    migrationItems_atRise, recordItems_atRise, counts_atRise, flags_atRise, flagBit_false, Nat.add_zero, List.append_assoc]
  rfl

/-- Settles O49: GET_STATUS by the state each unit's items are read from, RESULT_READ by the held result. -/
theorem statusAndResultRead : Obligations.StatusAndResultRead := by
  unfold Obligations.StatusAndResultRead
  refine ⟨?_, ?_, ?_⟩
  · intro s u ahead src ptr frames straddle source pointer
    have sources : (fun x => if x ∈ ahead then s.withEvent else s) = src := by
      funext x
      rw [source x]
      obtain ⟨rfl, rfl | pending⟩ | ⟨c, rest, pending, notOn, notOff, notMalformed, notUnknown, notRead, notCommand, run, now⟩ :=
        straddle
      · simp
      · rw [State.withEvent_of_empty pending]
      · rw [State.withEvent_of_event pending
          (eventEffect_of_exec notOn notOff notMalformed notUnknown notRead notCommand run) now]
    have run := exec_getStatus frames ahead
    rw [sources] at run
    refine ⟨fun ready => ?_, fun loading => ?_⟩
    · rw [run, statusBytes_ready ready, State.appendByte_eq pointer, MigrationUnit.items_eq, RecordUnit.items_eq,
        RequestUnit.orphans_eq]
      simp only [mapItems, List.append_assoc, flagBit]
      rfl
    · rw [run, statusBytes_loading loading, State.appendByte_eq pointer]
      simp only [flagBit]
      rfl
  · intro ahead s frames
    exact ⟨_, length_statusBytes _, exec_getStatus frames ahead⟩
  · intro clocked bytes s frames spelled
    have sent : s.port.result.bytes = bytes ++ [crc8 bytes] := by
      rw [spelled, HeldResult.bytes, be1_eq]
      rfl
    have run : exec (.resultRead [] clocked) s = .next (s.sendResult clocked) :=
      congrArg Host.Outcome.next ((if_pos rfl).trans (atPort_of_takes frames _))
    rw [run, State.sendResult, readFrameMso, sent, List.length_append]
    rfl

/-! ### GET_PARAM and SET_PARAM (R98, R132, R190 to R193) -/

section Params
variable {s : State} {id v : Nat} {p : Param}

theorem exec_getParam {b : Byte} {r : Reply} (h : s.accepts) (reply : getParamReply b.toNat s = r) :
    exec (.getParam [b]) s = .next (r.after.answered .getParam 1 r.result r.payload) :=
  exec_byteReply (c := .getParam) h rfl (by decide) (by rw [← reply, ← ofBe_singleton b]; rfl)

theorem exec_setParam {b b1 b0 : Byte} {r : Reply} (h : s.accepts) (reply : setParamReply b.toNat (ofBe [b1, b0]) s = r) :
    exec (.setParam [b, b1, b0]) s = .next (r.after.answered .setParam 3 r.result r.payload) :=
  exec_reply (c := .setParam) (args := [b, b1, b0]) h (by decide) rfl (by simp [Command.lengths])
    (by rw [← reply, ← ofBe_singleton b]; rfl)

theorem getParamReply_none (none : Param.ofId id = none) : getParamReply id s = s.refuse .range := by
  rw [getParamReply, none]

theorem getParamReply_some (some : Param.ofId id = some p) : getParamReply id s = s.report (be1 id ++ be2 (s.params.value p)) := by
  rw [getParamReply, some]

theorem setParamReply_none (none : Param.ofId id = none) : setParamReply id v s = s.refuse .range := by
  rw [setParamReply, none]

theorem setParamReply_range (some : Param.ofId id = some p) (range : p.inRange v = false) :
    setParamReply id v s = s.refuse .range := by
  rw [setParamReply, some]
  exact if_pos range

theorem setParamReply_ok (some : Param.ofId id = some p) (range : p.inRange v = true) :
    setParamReply id v s =
      { result := .ok, payload := be1 id ++ be2 (s.params.value p) ++ be2 v
        after := (s.writeParam p v).paramWritten p (s.params.value p) v } := by
  rw [setParamReply, some]
  refine (if_neg (by rw [range]; decide)).trans ?_
  rw [Params.value_write _ range, if_pos rfl]

/-- Two bytes are sent back as they were received. -/
theorem be2_ofBe (b1 b0 : Byte) : be2 (ofBe [b1, b0]) = [b1, b0] := by
  have h1 := b1.isLt
  have h0 := b0.isLt
  simp only [be2, byteOf, ofBe, List.foldl_cons, List.foldl_nil, Nat.zero_mul, Nat.zero_add, List.cons.injEq, and_true]
  constructor <;> apply BitVec.eq_of_toNat_eq <;> rw [BitVec.toNat_ofNat] <;> omega

theorem State.paramWritten_other {old new : Nat} (notDecay : p ≠ .decayPeriod) (notGap : p ≠ .patrolGap) :
    s.paramWritten p old new = s := by
  cases p with
  | decayPeriod => exact absurd rfl notDecay
  | patrolGap => exact absurd rfl notGap
  | _ => rfl

theorem exec_setParam_ok {b b1 b0 : Byte} (h : s.accepts) (some : Param.ofId b.toNat = some p)
    (range : p.inRange (ofBe [b1, b0]) = true) :
    exec (.setParam [b, b1, b0]) s =
      .next (((s.writeParam p (ofBe [b1, b0])).paramWritten p (s.params.value p) (ofBe [b1, b0])).answered .setParam 3 .ok
        ([b] ++ be2 (s.params.value p) ++ [b1, b0])) := by
  have run := exec_setParam h (setParamReply_ok some range)
  rwa [be1_toNat, be2_ofBe] at run

/-- An expiry that is due is taken before a write of DECAY_PERIOD, as DECAY_EXPIRY takes it (log 21). -/
theorem exec_setParam_decayDue {b b1 b0 : Byte} {u : State} (h : s.accepts) (some : Param.ofId b.toNat = some .decayPeriod)
    (range : Param.decayPeriod.inRange (ofBe [b1, b0]) = true) (due : s.watch.decayDue = true)
    (expiry : exec .decayExpiry s = .next u) : exec (.setParam [b, b1, b0]) s = exec (.setParam [b, b1, b0]) u := by
  have taken := Host.Outcome.next.inj expiry
  rw [decayExpiryEffect, powered_of_high h.1] at taken
  by_cases stopped : s.params.decayPeriod = 0
  · rw [if_pos stopped] at taken
    rw [taken]
  · rw [if_neg stopped, if_pos due] at taken
    subst taken
    have h' : State.accepts { s with watch := s.watch.decay } := h
    rw [exec_setParam_ok h some range, exec_setParam_ok h' some range]
    simp only [State.paramWritten, State.writeParam, WatchUnit.takeDue, due, WatchUnit.decay_decayDue, if_true,
      Bool.false_eq_true, if_false]
    rfl

/-- A write of PATROL_GAP in READY, by the patrol unit's state (R132). -/
theorem patrolGapWritten_of_ready (ready : s.isReady = true) (old new : Nat) :
    patrolGapWritten s.patrol.state old new (s.isReady && s.prstN) =
      match s.patrol.state with
      | .off => if new ≠ 0 ∧ old = 0 ∧ s.prstN = true then .gap 0 else .off
      | .gap _ => if new = 0 then .off else .gap 0
      | .seeking => if new = 0 then .off else .seeking
      | .offered b q => if new = 0 then .off else .offered b q
      | .reading b q t d => .reading b q t d := by
  rw [ready, Bool.true_and]
  cases s.patrol.state <;> rfl

end Params

/-- Settles O50: the reply of each check, then what the write does to its unit. -/
theorem paramCommands : Obligations.ParamCommands := by
  unfold Obligations.ParamCommands
  constructor
  · intro id s h
    refine ⟨fun none => exec_getParam h (getParamReply_none none), fun p some => ?_⟩
    have run := exec_getParam h (getParamReply_some some)
    rwa [be1_toNat] at run
  · rintro id b1 b0 v s h rfl
    refine ⟨fun none => exec_setParam h (setParamReply_none none),
      fun p some range => exec_setParam h (setParamReply_range some range), fun p some range => ?_⟩
    have run := exec_setParam_ok h some range
    refine ⟨fun notDecay notGap => ?_, ?_, ?_, ?_⟩
    · rw [run, State.paramWritten_other notDecay notGap]
      rfl
    · rintro rfl notDue
      rw [run]
      simp only [State.paramWritten, State.writeParam, WatchUnit.takeDue_of_not notDue]
      rfl
    · rintro rfl due u expiry
      exact exec_setParam_decayDue h some range due expiry
    · rintro rfl
      rw [run]
      have gap := patrolGapWritten_of_ready (s := s.writeParam .patrolGap (ofBe [b1, b0])) h.2.2 s.params.patrolGap (ofBe [b1, b0])
      rw [State.paramWritten, show s.params.value .patrolGap = s.params.patrolGap from rfl, gap]
      rfl

/-- Of a two-byte value the top bit says whether it is below 32768. -/
theorem lt_iff_testBit_top {v : Nat} (two : v < 65536) : v < 32768 ↔ v.testBit 15 = false := by
  rw [Nat.testBit_eq_decide_div_mod_eq, decide_eq_false_iff_not]
  omega

/-- Settles O51: parameter by parameter. -/
theorem parameterRanges : Obligations.ParameterRanges := by
  unfold Obligations.ParameterRanges
  refine ⟨rfl, ?_, ?_, ?_⟩
  · rintro id (rfl | beyond)
    · rfl
    · unfold Param.ofId
      split <;> first | omega | rfl
  · intro v two
    refine ⟨decide_eq_true_iff, decide_eq_true_iff, decide_eq_true_iff, decide_eq_true_iff, decide_eq_true_iff,
      decide_eq_true (Nat.le_of_lt_succ two), decide_eq_true (Nat.le_of_lt_succ two), decide_eq_true_iff, ?_,
      decide_eq_true_iff, ?_⟩
    · exact decide_eq_true_iff.trans (and_iff_left (Nat.le_of_lt_succ two))
    · exact decide_eq_true_iff.trans (lt_iff_testBit_top two)
  · intro ps p q v range
    exact ⟨(Params.value_write ps range p).trans (if_pos rfl), fun other => (Params.value_write ps range q).trans (if_neg other)⟩

end Sys2Proof.Machine
end

section
/-! Status reports counted and refused, and the decay (R98 to R106, R113). -/

namespace Sys2Proof.Machine

/-! ### The place of a counted report's entry (R101 to R103) -/

theorem State.isCounted_iff {s : State} {p : Nat} : s.isCounted p ↔ (s.classify p).counted = true := by
  unfold State.isCounted
  cases s.classify p <;> simp [BlockClass.counted]

theorem Suspect.candidate_iff {e : Suspect} : e.candidate = true ↔ e.ceFired = false ∧ e.ueFired = false := by
  simp [Suspect.candidate]

/-- The victim's keys are tested in the order of the statement, the position apart. -/
theorem victimBefore_iff {now : Epoch} {e f : Suspect} :
    victimBefore now e f = true ↔
      e.ue < f.ue ∨ (e.ue = f.ue ∧ (e.ce < f.ce ∨ (e.ce = f.ce ∧ (now - f.last).toNat < (now - e.last).toNat))) := by
  simp only [victimBefore, Bool.or_eq_true, Bool.and_eq_true, decide_eq_true_eq, beq_iff_eq]
  rfl

/-- Of two candidates the one chosen is before the other by the keys, or level with it and at the lower position. -/
theorem victimBefore_of_chosen {now : Epoch} {i j : Nat} {e f : Suspect} (h : chosenBefore now i e j f) :
    (j < i → victimBefore now e f = true) ∧ victimBefore now f e = false := by
  constructor
  · intro later
    rw [victimBefore_iff]
    unfold chosenBefore at h
    omega
  · rw [← Bool.not_eq_true, victimBefore_iff]
    unfold chosenBefore at h
    omega

/-- The victim the search finds is a candidate of the table at its position. -/
theorem victimFrom_spec {now : Epoch} {t : List (Option Suspect)} :
    ∀ {start j : Nat} {e : Suspect}, victimFrom now start t = some (j, e) →
      start ≤ j ∧ t[j - start]? = some (some e) ∧ e.candidate = true := by
  induction t with
  | nil => intro start j e h; cases h
  | cons x xs ih =>
    intro start j e h
    have later : ∀ {k f}, victimFrom now (start + 1) xs = some (k, f) →
        start ≤ k ∧ (x :: xs)[k - start]? = some (some f) ∧ f.candidate = true := fun {k f} hk => by
      obtain ⟨low, found, cand⟩ := ih hk
      refine ⟨by omega, ?_, cand⟩
      rw [show k - start = k - (start + 1) + 1 by omega]
      exact found
    have here : ∀ {f : Suspect}, x = some f → f.candidate = true →
        start ≤ start ∧ (x :: xs)[start - start]? = some (some f) ∧ f.candidate = true := fun hf cand =>
      ⟨Nat.le_refl _, by rw [Nat.sub_self, hf]; rfl, cand⟩
    unfold victimFrom at h
    split at h
    next g k f hv =>
      split at h
      next cand =>
        split at h <;> cases h
        · exact later hv
        · exact here rfl cand
      · cases h; exact later hv
    next g hv =>
      split at h
      next cand => cases h; exact here rfl cand
      · cases h
    · exact later h

/-- A candidate before every other candidate is the victim (R103). -/
theorem victimFrom_of_chosen {now : Epoch} {t : List (Option Suspect)} :
    ∀ {start i : Nat} {v : Suspect}, start ≤ i → t[i - start]? = some (some v) → v.candidate = true →
      (∀ (j : Nat) (f : Suspect), start ≤ j → t[j - start]? = some (some f) → f.candidate = true → j ≠ i →
        chosenBefore now i v j f) → victimFrom now start t = some (i, v) := by
  induction t with
  | nil => intro start i v _ found; simp at found
  | cons x xs ih =>
    intro start i v low found cand chosen
    have shift : ∀ {j : Nat}, start + 1 ≤ j → (x :: xs)[j - start]? = xs[j - (start + 1)]? := fun {j} hj => by
      rw [show j - start = j - (start + 1) + 1 by omega]
      rfl
    unfold victimFrom
    by_cases first : i = start
    · subst first
      rw [Nat.sub_self] at found
      obtain rfl : x = some v := Option.some.inj found
      cases rest : victimFrom now (i + 1) xs with
      | none => simp only [cand, if_true]
      | some jf =>
        obtain ⟨j, f⟩ := jf
        obtain ⟨after, there, other⟩ := victimFrom_spec rest
        have before := chosen j f (by omega) ((shift after).trans there) other (by omega)
        simp only [cand, if_true, (victimBefore_of_chosen before).2, Bool.false_eq_true, if_false]
    · have rest : victimFrom now (start + 1) xs = some (i, v) :=
        ih (by omega) ((shift (by omega)).symm.trans found) cand fun j f hj there other =>
          chosen j f (by omega) ((shift hj).trans there) other
      rw [rest]
      cases x with
      | none => rfl
      | some e =>
        simp only []
        split
        next other =>
          have before := chosen start e (Nat.le_refl _) (by rw [Nat.sub_self]; rfl) other (Ne.symm first)
          rw [(victimBefore_of_chosen before).1 (by omega)]
          rfl
        · rfl

theorem mem_of_getElem?_some {t : List (Option Suspect)} {p i : Nat} {e : Suspect} {w : WatchUnit} (hw : w.suspects = t)
    (found : t[i]? = some (some e)) (absent : p ∉ w.blocks) : e.block ≠ p := by
  rintro rfl
  subst hw
  exact absent (List.mem_filterMap.mpr ⟨some e, List.mem_of_getElem? found, rfl⟩)

/-- A counted report goes to the place the search finds, into the entry made or kept there (R102, R103). -/
theorem State.countsInto_place {s : State} {p i : Nat} {e : Suspect} (distinct : s.watch.blocks.Nodup)
    (h : s.countsInto p i e) :
    suspectPlace s.clock.epoch s.watch.suspects p = some i ∧ suspectFor s.clock.epoch s.watch.suspects p i = e := by
  obtain ⟨found, named⟩ | ⟨absent, rfl, ⟨free, lowest⟩ | ⟨full, v, there, ceFired, ueFired, chosen⟩⟩ := h
  · constructor
    · rw [suspectPlace, suspectPos_of_nodup distinct found named]
    · rw [suspectFor, List.getD_eq_getElem?_getD, found]
      exact if_pos named
  · obtain ⟨inside, here⟩ := List.getElem?_eq_some_iff.mp free
    constructor
    · have pos : s.watch.suspects.findIdx? Option.isNone = some i := by
        refine List.findIdx?_eq_some_iff_getElem.mpr ⟨inside, by rw [here]; rfl, fun j hj => ?_⟩
        have := lowest j hj
        rw [List.getElem?_eq_getElem (by omega)] at this
        simpa using fun none => this (congrArg some none)
      rw [suspectPlace, suspectPos_none absent, pos]
    · rw [suspectFor, List.getD_eq_getElem?_getD, free]
      rfl
  · constructor
    · have none : s.watch.suspects.findIdx? Option.isNone = .none :=
        List.findIdx?_eq_none_iff.mpr fun x hx => by
          cases x with
          | none => exact absurd hx full
          | some e => rfl
      rw [suspectPlace, suspectPos_none absent, none, victimFrom_of_chosen (i := i) (v := v) (Nat.zero_le _) there
        (Suspect.candidate_iff.mpr ⟨ceFired, ueFired⟩)]
      · rfl
      · intro j f _ other cand ne
        obtain ⟨ce, ue⟩ := Suspect.candidate_iff.mp cand
        exact chosen j f other ce ue ne
    · rw [suspectFor, List.getD_eq_getElem?_getD, there]
      exact if_neg (mem_of_getElem?_some rfl there absent)

/-! ### Items counted with no firing (R100, R105, R106) -/

/-- The entry with the items of a report counted. -/
def Suspect.counted (e : Suspect) (now : Epoch) (items : List (Nat × ItemStatus)) : Suspect :=
  items.foldl
    (fun e x =>
      match x.2.limitClass with
      | some c => e.countOne now c
      | none => e) e

section Counted
variable (e : Suspect) (now : Epoch) (items : List (Nat × ItemStatus))

theorem Suspect.counted_cons (x : Nat × ItemStatus) :
    e.counted now (x :: items) =
      (match x.2.limitClass with
        | some c => e.countOne now c
        | none => e).counted now items := rfl

/-- What counting leaves of an entry. -/
theorem Suspect.counted_kept :
    (e.counted now items).block = e.block ∧ (e.counted now items).first = e.first ∧
      (e.counted now items).denied = e.denied ∧ ∀ c, (e.counted now items).fired c = e.fired c := by
  induction items generalizing e with
  | nil => exact ⟨rfl, rfl, rfl, fun _ => rfl⟩
  | cons x xs ih =>
    rw [Suspect.counted_cons]
    cases x.2.limitClass with
    | none => exact ih e
    | some c =>
      obtain ⟨block, first, denied, fired⟩ := ih (e.countOne now c)
      simp only [block, first, denied, fired, Suspect.countOne_fired, implies_true, and_true]
      cases c <;> exact ⟨rfl, rfl, rfl⟩

theorem Suspect.counted_count (c : LimitClass) :
    (e.counted now items).count c =
      if itemsOf c items = 0 then e.count c else min 255 (e.count c + itemsOf c items) := by
  induction items generalizing e with
  | nil => cases c <;> rfl
  | cons x xs ih =>
    rw [Suspect.counted_cons, ih, itemsOf_cons]
    cases x.2.limitClass with
    | none => simp
    | some d =>
      simp only [Suspect.countOne_count, Option.some.injEq]
      by_cases same : d = c
      · simp only [same, if_true, Nat.succ_ne_zero, if_false]
        split <;> omega
      · simp only [same, if_false, Nat.add_zero]

theorem Suspect.counted_last :
    (e.counted now items).last = if itemsOf .ce items = 0 ∧ itemsOf .ue items = 0 then e.last else now := by
  induction items generalizing e with
  | nil => rfl
  | cons x xs ih =>
    rw [Suspect.counted_cons, ih, itemsOf_cons, itemsOf_cons]
    cases x.2.limitClass with
    | none => simp
    | some d => cases d <;> simp [Suspect.countOne]

/-- An entry is its fields, by class. -/
theorem Suspect.eq_of {e f : Suspect} (block : e.block = f.block) (count : ∀ c, e.count c = f.count c)
    (first : e.first = f.first) (last : e.last = f.last) (fired : ∀ c, e.fired c = f.fired c)
    (denied : e.denied = f.denied) : e = f := by
  obtain ⟨ce, ue⟩ : e.ce = f.ce ∧ e.ue = f.ue := ⟨count .ce, count .ue⟩
  obtain ⟨ceFired, ueFired⟩ : e.ceFired = f.ceFired ∧ e.ueFired = f.ueFired := ⟨fired .ce, fired .ue⟩
  cases e
  cases f
  simp only [] at block ce ue first last ceFired ueFired denied
  subst block ce ue first last ceFired ueFired denied
  rfl

/-- Counts within their range are the sums, up to 255. -/
theorem Suspect.counted_eq (some : 0 < itemsOf .ce items + itemsOf .ue items) (ce : e.ce ≤ 255) (ue : e.ue ≤ 255) :
    e.counted now items =
      { e with
        ce := min 255 (e.ce + itemsOf .ce items), ue := min 255 (e.ue + itemsOf .ue items), last := now } := by
  obtain ⟨block, first, denied, fired⟩ := e.counted_kept now items
  refine Suspect.eq_of block (fun c => ?_) first ?_ (fun c => (fired c).trans (by cases c <;> rfl)) denied
  · rw [Suspect.counted_count]
    cases c <;> simp only [Suspect.count] <;> split <;> omega
  · rw [Suspect.counted_last, if_neg (by omega)]

end Counted

/-- No firing of class c comes of these items: it has none, has fired, or stays below its limit. -/
def Suspect.quiet (e : Suspect) (ps : Params) (c : LimitClass) (items : List (Nat × ItemStatus)) : Prop :=
  itemsOf c items = 0 ∨ e.fired c = true ∨ e.count c + itemsOf c items < ps.limit c

section Items
variable {s : State} {i : Nat}

theorem State.suspect?_setSuspect (inside : i < s.watch.suspects.length) (e : Suspect) :
    (s.setSuspect i e).suspect? i = some e := by
  rw [State.suspect?, List.getD_eq_getElem?_getD, State.setSuspect_watch]
  simp [inside]

theorem State.setSuspect_setSuspect (e f : Suspect) : (s.setSuspect i e).setSuspect i f = s.setSuspect i f := by
  simp only [State.setSuspect, List.set_set]

/-- One item counted into the entry just written. -/
theorem State.countItem_setSuspect (inside : i < s.watch.suspects.length) (bc : BlockClass) (e : Suspect) (st : ItemStatus) :
    (s.setSuspect i e).countItem bc i st =
      match st.limitClass with
      | some c =>
        if (e.countOne s.clock.epoch c).fires s.params c then (s.setSuspect i e).fire bc c i (e.countOne s.clock.epoch c)
        else s.setSuspect i (e.countOne s.clock.epoch c)
      | none => s.setSuspect i e := by
  unfold State.countItem
  rw [State.suspect?_setSuspect inside]
  cases st.limitClass with
  | none => rfl
  | some c =>
    dsimp only
    rw [State.setSuspect_setSuspect]
    rfl

/-- Items of which none fires are counted into the entry, and nothing else changes. -/
theorem State.countItems_quiet (inside : i < s.watch.suspects.length) (bc : BlockClass) (items : List (Nat × ItemStatus)) :
    ∀ e : Suspect, (∀ c, e.quiet s.params c items) →
      items.foldl (fun u x => u.countItem bc i x.2) (s.setSuspect i e) = s.setSuspect i (e.counted s.clock.epoch items) := by
  induction items with
  | nil => exact fun e _ => rfl
  | cons x xs ih =>
    intro e quiet
    have sum : ∀ c, itemsOf c (x :: xs) = itemsOf c xs + if x.2.limitClass = some c then 1 else 0 := fun c =>
      itemsOf_cons c x xs
    rw [List.foldl_cons, State.countItem_setSuspect inside, Suspect.counted_cons]
    cases class_ : x.2.limitClass with
    | none =>
      refine ih e fun c => ?_
      have := quiet c
      unfold Suspect.quiet at *
      rwa [sum, class_, if_neg (by simp), Nat.add_zero] at this
    | some c =>
      have calm : (e.countOne s.clock.epoch c).fires s.params c = false := by
        have := quiet c
        unfold Suspect.quiet at this
        rw [sum, class_, if_pos rfl] at this
        unfold Suspect.fires
        rw [Suspect.countOne_fired, Suspect.countOne_count, if_pos rfl]
        simp only [Bool.and_eq_false_iff, decide_eq_false_iff_not, Bool.not_eq_false']
        obtain none | fired | below := this
        · omega
        · exact .inr fired
        · exact .inl (by omega)
      simp only [calm, Bool.false_eq_true, if_false]
      refine ih _ fun d => ?_
      have := quiet d
      unfold Suspect.quiet at *
      rw [sum, class_] at this
      rw [Suspect.countOne_fired, Suspect.countOne_count]
      by_cases same : c = d
      · rw [if_pos (congrArg some same)] at this
        rw [if_pos same]
        obtain none | fired | below := this
        · omega
        · exact .inr (.inl fired)
        · exact .inr (.inr (by omega))
      · rw [if_neg (fun h => same (Option.some.inj h))] at this
        rw [if_neg same]
        exact this

end Items

/-! ### STATUS_REPORT (R100 to R104) -/

/-- A report taken leaves the waiting ones. -/
theorem exec_statusReport {s : State} {k : Nat} {r : StatusReport} (high : s.pwrOk = true)
    (found : s.watch.reports[k]? = some r) :
    exec (.statusReport k) s = .next ((s.withReports (s.watch.reports.eraseIdx k)).takeReport r) := by
  simp only [exec, execStatusReport, statusReportEffect, powered, if_pos high, found]
  rfl

theorem itemsOf_pos_iff {items : List (Nat × ItemStatus)} :
    0 < itemsOf .ce items + itemsOf .ue items ↔ (items.all fun x => x.2 == .ok) = false := by
  have error : ∀ st : ItemStatus, ¬st = .ok ↔ st = .corrected ∨ st = .uncorrectable ∨ st = .failed := by
    intro st; cases st <;> decide
  rw [Nat.add_pos_iff_pos_or_pos, itemsOf, itemsOf, List.countP_pos_iff, List.countP_pos_iff, List.all_eq_false]
  simp only [beq_iff_eq, Bool.or_eq_true, error]
  constructor
  · rintro (⟨x, hx, h⟩ | ⟨x, hx, h⟩)
    · exact ⟨x, hx, .inl h⟩
    · exact ⟨x, hx, .inr h⟩
  · rintro ⟨x, hx, h | h⟩
    · exact .inl ⟨x, hx, h⟩
    · exact .inr ⟨x, hx, h⟩

/-- A counted report with an error item counts its items into its entry. -/
theorem State.takeReport_into {s : State} {r : StatusReport} {i : Nat} {e : Suspect} (distinct : s.watch.blocks.Nodup)
    (counted : s.isCounted r.block) (into : s.countsInto r.block i e)
    (error : (r.items.all fun x => x.2 == .ok) = false) :
    i < s.watch.suspects.length ∧
      s.takeReport r = r.items.foldl (fun u x => u.countItem (s.classify r.block) i x.2) (s.setSuspect i e) := by
  obtain ⟨place, entry⟩ := State.countsInto_place distinct into
  refine ⟨suspectPlace_lt place, ?_⟩
  rw [State.takeReport_counted error (State.isCounted_iff.mp counted) place, entry]

/-- Settles O31: the items are counted into the entry the search finds, and none fires. -/
theorem statusReportCounts : Obligations.StatusReportCounts := by
  unfold Obligations.StatusReportCounts
  rintro k i n m r e s high found distinct counted into ce ue rfl rfl some quietCe quietUe
  obtain ⟨inside, taken⟩ := State.takeReport_into (s := s.withReports (s.watch.reports.eraseIdx k)) distinct counted into
    (itemsOf_pos_iff.mp some)
  rw [exec_statusReport high found, taken, State.countItems_quiet inside _ _ e fun c => by cases c <;> assumption,
    Suspect.counted_eq e _ _ some ce ue]
  rfl

theorem suspectPlace_full {now : Epoch} {t : List (Option Suspect)} {p : Nat} (absent : suspectPos t p = none)
    (fired : ∀ x ∈ t, ∃ e : Suspect, x = some e ∧ (e.ceFired = true ∨ e.ueFired = true)) :
    suspectPlace now t p = none := by
  have none : t.findIdx? Option.isNone = .none :=
    List.findIdx?_eq_none_iff.mpr fun x hx => by
      obtain ⟨e, rfl, -⟩ := fired x hx
      rfl
  have noVictim : victimFrom now 0 t = .none := by
    rw [Option.eq_none_iff_forall_not_mem]
    rintro ⟨j, e⟩ victim
    obtain ⟨-, there, cand⟩ := victimFrom_spec victim
    obtain ⟨f, same, h⟩ := fired _ (List.mem_of_getElem? there)
    cases same
    obtain ⟨ce, ue⟩ := Suspect.candidate_iff.mp cand
    rw [ce, ue] at h
    simp at h
  rw [suspectPlace, absent, none, noVictim]
  rfl

/-- Settles O32: a report with no error item, of a block not counted, or with no place for its entry. -/
theorem reportsNotCounted : Obligations.ReportsNotCounted := by
  unfold Obligations.ReportsNotCounted
  intro k r s high found
  rw [exec_statusReport high found]
  refine ⟨fun ok => ?_, fun uncounted => ?_, fun counted error absent fired => ?_⟩
  · rw [State.takeReport_allOk (List.all_eq_true.mpr fun x hx => beq_iff_eq.mpr (ok x hx))]
    rfl
  · rw [State.takeReport_uncounted (by rw [← Bool.not_eq_true]; exact mt State.isCounted_iff.mpr uncounted)]
    rfl
  · have none := suspectPlace_full (now := s.clock.epoch) (suspectPos_none absent) fired
    refine ⟨fun reported => ?_, fun first => ?_⟩
    · rw [State.takeReport_refused (s := s.withReports (s.watch.reports.eraseIdx k)) none reported]
      rfl
    · have someError : (r.items.all fun x => x.2 == .ok) = false := by
        obtain ⟨x, hx, notOk⟩ := error
        exact List.all_eq_false.mpr ⟨x, hx, fun ok => notOk (beq_iff_eq.mp ok)⟩
      rw [State.takeReport_full (s := s.withReports (s.watch.reports.eraseIdx k)) someError
        (State.isCounted_iff.mp counted) none first]
      rfl

/-! ### Decay (R98, R113) -/

theorem Suspect.decayed_iff {e : Suspect} :
    Suspect.decayed { e with ce := e.ce / 2 } = true ↔
      e.ceFired = false ∧ e.ueFired = false ∧ e.ce / 2 = 0 ∧ e.ue = 0 := by
  simp only [Suspect.decayed, Suspect.candidate, Bool.and_eq_true, Bool.not_eq_true', beq_iff_eq, and_assoc]

theorem decayEntry_freed {e : Suspect} (h : e.ceFired = false ∧ e.ueFired = false ∧ e.ce / 2 = 0 ∧ e.ue = 0) :
    decayEntry (some e) = none := if_pos (Suspect.decayed_iff.mpr h)

theorem decayEntry_kept {e : Suspect} (h : e.ceFired = true ∨ e.ueFired = true ∨ e.ce / 2 ≠ 0 ∨ e.ue ≠ 0) :
    decayEntry (some e) = some { e with ce := e.ce / 2 } := by
  refine if_neg fun freed => ?_
  obtain ⟨ce, ue, low, zero⟩ := Suspect.decayed_iff.mp freed
  simp [ce, ue, low, zero] at h

/-- What a decay expiry does to the error watch unit. -/
theorem WatchUnit.decay_decayedTo (w : WatchUnit) : w.decayedTo w.decay := by
  have at_ : ∀ {i : Nat} {x : Option Suspect}, w.suspects[i]? = some x → w.decay.suspects[i]? = some (decayEntry x) :=
    fun {i x} h => by rw [WatchUnit.decay, List.getElem?_map, h]; rfl
  refine ⟨List.length_map .., fun i free => at_ free, fun i e found ce ue low zero => ⟨?_, ?_⟩,
    fun i e found kept => ?_, fun kept => ?_, rfl, rfl, rfl⟩
  · rw [at_ found, decayEntry_freed ⟨ce, ue, low, zero⟩]
  · have freed : (w.suspects.any fun x => x.isSome && (decayEntry x).isNone) = true :=
      List.any_eq_true.mpr ⟨some e, List.mem_of_getElem? found, by rw [decayEntry_freed ⟨ce, ue, low, zero⟩]; rfl⟩
    rw [WatchUnit.decay, freed, Bool.not_true, Bool.and_false]
  · rw [at_ found, decayEntry_kept kept]
  · have none : (w.suspects.any fun x => x.isSome && (decayEntry x).isNone) = false := by
      rw [List.any_eq_false]
      intro x hx
      cases x with
      | none => simp
      | some e =>
        obtain ⟨i, found⟩ := List.mem_iff_getElem?.mp hx
        rw [decayEntry_kept (kept i e found)]
        simp
    rw [WatchUnit.decay, none, Bool.not_false, Bool.and_true]

section Ticks
variable (s : State)

theorem State.passMilliseconds_patrol {d : Nat} (some : d ≠ 0) :
    (s.passMilliseconds d).patrol.block = s.patrol.block ∧ (s.passMilliseconds d).patrol.quad = s.patrol.quad ∧
      (s.passMilliseconds d).patrol.state.number = s.patrol.state.number := by
  unfold State.passMilliseconds
  dsimp only
  rw [if_neg some]
  exact s.patrol.pass_number ..

theorem State.passMilliseconds_epoch (d : Nat) :
    (s.passMilliseconds d).clock.epoch = s.clock.epoch + BitVec.ofNat 32 d := by
  unfold State.passMilliseconds
  dsimp only
  split <;> rfl

theorem State.passMilliseconds_rest (d : Nat) :
    { s.passMilliseconds d with clock := s.clock, watch := s.watch, fuse := s.fuse, patrol := s.patrol } = s := by
  unfold State.passMilliseconds
  dsimp only
  split <;> rfl

end Ticks

/-- Settles O34: `WatchUnit.decay_decayedTo`, after the ticks that are lacking. -/
theorem decayHalves : Obligations.DecayHalves := by
  unfold Obligations.DecayHalves
  refine ⟨fun s stopped => ?_, fun s high running due => ?_, fun s high running notDue below => ?_⟩
  · simp only [exec, execDecayExpiry, decayExpiryEffect, powered, stopped, if_true, ite_self]
  · refine ⟨{ s with watch := s.watch.decay }, ?_, s.watch.decay_decayedTo, rfl, rfl⟩
    simp only [exec, execDecayExpiry, decayExpiryEffect, powered, if_pos high, if_neg running, due, if_true]
  · have ticks : s.params.decayPeriod * 100 - s.watch.decayCount ≠ 0 := by omega
    have run : exec .decayExpiry s =
        .next { s.passMilliseconds (s.params.decayPeriod * 100 - s.watch.decayCount) with
          watch := (s.passMilliseconds (s.params.decayPeriod * 100 - s.watch.decayCount)).watch.decay } := by
      simp only [exec, execDecayExpiry, decayExpiryEffect, powered, if_pos high, if_neg running, notDue,
        Bool.false_eq_true, if_false]
      rfl
    have watch : (s.passMilliseconds (s.params.decayPeriod * 100 - s.watch.decayCount)).watch =
        { s.watch with decayCount := 0, decayDue := true } := by
      rw [State.passMilliseconds_watch, WatchUnit.pass_reaches _ ticks (by omega), WatchUnit.takeDue_of_not notDue]
    rw [run, watch]
    obtain ⟨block, quad, number⟩ := s.passMilliseconds_patrol ticks
    exact ⟨_, rfl, WatchUnit.decay_decayedTo { s.watch with decayCount := 0, decayDue := true }, rfl,
      s.passMilliseconds_epoch _, by rw [State.passMilliseconds_fuse], block, quad, number,
      s.passMilliseconds_rest _⟩

end Sys2Proof.Machine
end

section
/-! The firings of the error watch unit (R106 to R112). -/

namespace Sys2Proof.Machine

/-! ### Flags and counts of an entry that fires -/

section Entry
variable (e : Suspect) (now : Epoch) (c d : LimitClass)

theorem Suspect.setFired_fired : (e.setFired c).fired d = if c = d then true else e.fired d := by
  cases c <;> cases d <;> rfl

theorem Suspect.setFired_count : (e.setFired c).count d = e.count d := by
  cases c <;> cases d <;> rfl

/-- The entry after an error of class c that fires with RETIRE: it is counted, and its fired flag is set. -/
def Suspect.countFiring : Suspect := (e.countOne now c).setFired c

theorem Suspect.countFiring_block : (e.countFiring now c).block = e.block :=
  (Suspect.setFired_block ..).trans (Suspect.countOne_block ..)

theorem Suspect.countFiring_count :
    (e.countFiring now c).count d = if c = d then min 255 (e.count d + 1) else e.count d :=
  (Suspect.setFired_count ..).trans (Suspect.countOne_count ..)

theorem Suspect.countFiring_fired : (e.countFiring now c).fired d = if c = d then true else e.fired d := by
  rw [Suspect.countFiring, Suspect.setFired_fired, Suspect.countOne_fired]

theorem Suspect.countFiring_kept :
    (e.countFiring now c).first = e.first ∧ (e.countFiring now c).last = now ∧ (e.countFiring now c).denied = e.denied := by
  cases c <;> exact ⟨rfl, rfl, rfl⟩

/-- A class not fired fires when its count has come to its limit. -/
theorem Suspect.fires_iff {ps : Params} : e.fires ps c = true ↔ ps.limit c ≤ e.count c ∧ e.fired c = false := by
  simp [Suspect.fires]

end Entry

/-! ### What a firing does, by action and class of block (R107 to R111) -/

section Firing
variable {s : State} {i l k : Nat} {c : LimitClass} {e : Suspect}

theorem State.enqueue_merged {p : Nat} (held : l ∈ s.mig.blocks) : s.enqueue l p = (.merged, s) := by
  rw [State.enqueue, if_pos (MigrationUnit.holds_iff.mpr held)]

theorem State.enqueue_full {p : Nat} (free : l ∉ s.mig.blocks) (full : 8 ≤ s.mig.occupancy) :
    s.enqueue l p = (.full, s) := by
  rw [State.enqueue, if_neg (mt MigrationUnit.holds_iff.mp free), if_pos (MigrationUnit.isFull_iff.mpr full)]

theorem State.enqueue_accepted {p : Nat} (free : l ∉ s.mig.blocks) (room : s.mig.occupancy < 8) :
    s.enqueue l p =
      (.accepted, s.setMig (s.mig.join { l := l, origin := .auto p, retry := 0, enqueued := s.clock.epoch })) := by
  rw [State.enqueue, if_neg (mt MigrationUnit.holds_iff.mp free),
    if_neg (mt MigrationUnit.isFull_iff.mp (Nat.not_le.mpr room))]

theorem State.enqueue_setSuspect (f : Suspect) (p : Nat) :
    (s.setSuspect i f).enqueue l p = ((s.enqueue l p).1, (s.enqueue l p).2.setSuspect i f) := by
  unfold State.enqueue
  rw [State.setSuspect_mig]
  split
  · rfl
  · split <;> rfl

/-- A firing writes the entry anew, so what stood there does not matter. -/
theorem State.fire_setSuspect (bc : BlockClass) (f : Suspect) : (s.setSuspect i f).fire bc c i e = s.fire bc c i e := by
  have twice := @State.setSuspect_setSuspect s i f
  have enqueue : ∀ l, (s.setSuspect i f).fireEnqueue c i l (e.setFired c) = s.fireEnqueue c i l (e.setFired c) := fun l => by
    unfold State.fireEnqueue
    rw [State.enqueue_setSuspect]
    simp only [State.setSuspect_setSuspect]
  unfold State.fire
  rw [show (s.setSuspect i f).params = s.params from rfl]
  cases s.params.action c with
  | none => exact twice e
  | log | alert => dsimp only; rw [twice]
  | retire =>
    unfold State.fireRetire
    cases bc with
    | homeInUse l | servingSpare _ l => exact enqueue l
    | freeSpare | migrationTarget => dsimp only; rw [twice]; rfl
    | homeRemapped | retiredSpare => exact twice _

theorem State.fire_none (action : s.params.action c = .none) (bc : BlockClass) : s.fire bc c i e = s.setSuspect i e := by
  rw [State.fire, action]

theorem State.fire_logged (action : s.params.action c = .log ∨ s.params.action c = .alert) (bc : BlockClass) :
    s.fire bc c i e =
      (s.setSuspect i (e.afterLog s.params.rearmMode c)).hand .watch (limitRecord c e.block bc.served? (e.count c) .none)
        (some (s.params.action c)) := by
  obtain action | action := action <;> rw [State.fire, action]

theorem State.fire_retire (action : s.params.action c = .retire) (bc : BlockClass) :
    s.fire bc c i e = s.fireRetire bc c i e := by
  rw [State.fire, action]

theorem State.fireRetire_serving {bc : BlockClass} (serving : bc = .homeInUse l ∨ ∃ sp, bc = .servingSpare sp l) :
    s.fireRetire bc c i e = s.fireEnqueue c i l (e.setFired c) := by
  obtain rfl | ⟨sp, rfl⟩ := serving <;> rfl

/-- The limit record and the entry of an enqueue refused or not. -/
theorem State.fireEnqueue_eq {answer : EnqueueAnswer} {u : State} (enqueued : s.enqueue l e.block = (answer, u)) :
    s.fireEnqueue c i l (e.setFired c) =
      (u.setSuspect i (if answer = .full then { e.setFired c with denied := true } else e.setFired c)).hand .watch
        (limitRecord c e.block (some l) (e.count c) (if answer = .full then .queueFull else .none)) (some .retire) := by
  unfold State.fireEnqueue
  rw [Suspect.setFired_block, Suspect.setFired_count, enqueued]
  cases c <;> rfl

theorem State.retireIfFree_free (free : entryAt s.table k = .free) :
    s.retireIfFree k = (.free, s.setEntry k (.retired none none false false)) := by
  rw [State.retireIfFree, free]

theorem State.retireIfFree_retired {o slot : Option Nat} {b p : Bool} (retired : entryAt s.table k = .retired o slot b p) :
    s.retireIfFree k = (.retired o slot b p, s) := by
  rw [State.retireIfFree, retired]

theorem State.fireRetire_freeSpare :
    s.fireRetire (.freeSpare k) c i e =
      ((s.setSuspect i (e.setFired c)).handFiring c e).fireFreeSpare i k s.watch.firings (e.setFired c) := rfl

theorem State.setSuspect_handFiring (f : Suspect) :
    (s.setSuspect i f).handFiring c e = (s.handFiring c e).setSuspect i f := rfl

/-- The firing on a free spare retires it (R110). -/
theorem State.fireRetire_free (free : entryAt s.table k = .free) :
    s.fireRetire (.freeSpare k) c i e =
      State.setSuspect
        (((s.handFiring c e).setEntry k (.retired none none false false)).hand .watch (.spareBanned k .errorLimit)) i
        (e.setFired c) := by
  rw [State.fireRetire_freeSpare, State.fireFreeSpare,
    State.retireIfFree_free (by rwa [State.handFiring_table, State.setSuspect_table])]
  rfl

/-- A firing by the class of a free spare that an earlier firing has retired (R101, R112). -/
theorem State.fireRetire_retired {o slot : Option Nat} {b p : Bool} (retired : entryAt s.table k = .retired o slot b p) :
    s.fireRetire (.freeSpare k) c i e = (s.handFiring c e).setSuspect i (e.setFired c) := by
  rw [State.fireRetire_freeSpare, State.fireFreeSpare,
    State.retireIfFree_retired (by rwa [State.handFiring_table, State.setSuspect_table])]
  exact State.setSuspect_handFiring ..

end Firing

theorem classify_freeSpare {limit p k : Nat} {t : List Entry} (h : classify limit t p = .freeSpare k) :
    entryAt t k = .free := by
  unfold classify at h
  split at h
  · split at h <;> cases h
  · split at h <;> cases h
    assumption

/-! ### A report with one error item -/

section Single
variable {s : State} {r : StatusReport} {i line : Nat} {pre post : List (Nat × ItemStatus)} {st : ItemStatus}
  {c : LimitClass} {e : Suspect}

theorem ItemStatus.ne_ok {st : ItemStatus} {c : LimitClass} (counts : st.limitClass = some c) : st ≠ .ok := by
  rintro rfl
  cases counts

theorem all_ok {items : List (Nat × ItemStatus)} (h : ∀ x ∈ items, x.2 = .ok) : (items.all fun x => x.2 == .ok) = true :=
  List.all_eq_true.mpr fun x hx => beq_iff_eq.mpr (h x hx)

theorem not_all_ok {items : List (Nat × ItemStatus)} (mem : (line, st) ∈ items) (counts : st.limitClass = some c) :
    (items.all fun x => x.2 == .ok) = false :=
  List.all_eq_false.mpr ⟨_, mem, fun ok => ItemStatus.ne_ok counts (beq_iff_eq.mp ok)⟩

theorem countsInto_block {p : Nat} (distinct : s.watch.blocks.Nodup) (into : s.countsInto p i e) : e.block = p := by
  obtain ⟨-, entry⟩ := State.countsInto_place distinct into
  rw [← entry, suspectFor_block]

/-- The items up to the first error item, which fires. -/
theorem State.countItems_fires (inside : i < s.watch.suspects.length) (bc : BlockClass) (ok : ∀ x ∈ pre, x.2 = .ok)
    (counts : st.limitClass = some c) (limit : s.params.limit c ≤ (e.countOne s.clock.epoch c).count c)
    (fresh : e.fired c = false) :
    (pre ++ [(line, st)]).foldl (fun u x => u.countItem bc i x.2) (s.setSuspect i e) =
      s.fire bc c i (e.countOne s.clock.epoch c) := by
  have fires : (e.countOne s.clock.epoch c).fires s.params c = true :=
    (Suspect.fires_iff ..).mpr ⟨limit, by rw [Suspect.countOne_fired, fresh]⟩
  rw [List.foldl_append, State.countItems_allOk _ _ _ _ (all_ok ok), List.foldl_cons, List.foldl_nil,
    State.countItem_setSuspect inside, counts]
  simp only [fires, if_true]
  exact State.fire_setSuspect ..

theorem State.takeReport_single (distinct : s.watch.blocks.Nodup) (counted : s.isCounted r.block)
    (into : s.countsInto r.block i e) (items : r.items = pre ++ (line, st) :: post) (ok : ∀ x ∈ pre ++ post, x.2 = .ok)
    (counts : st.limitClass = some c) (limit : s.params.limit c ≤ (e.countOne s.clock.epoch c).count c)
    (fresh : e.fired c = false) :
    s.takeReport r = s.fire (s.classify r.block) c i (e.countOne s.clock.epoch c) := by
  obtain ⟨inside, taken⟩ := State.takeReport_into distinct counted into
    (not_all_ok (line := line) (by rw [items]; simp) counts)
  rw [taken, items, show pre ++ (line, st) :: post = (pre ++ [(line, st)]) ++ post by simp, List.foldl_append,
    State.countItems_fires inside _ (fun x hx => ok x (List.mem_append_left _ hx)) counts limit fresh,
    State.countItems_allOk _ _ _ _ (all_ok fun x hx => ok x (List.mem_append_right _ hx))]

end Single

/-- A report taken from among the waiting ones. -/
theorem exec_statusReport_at {s : State} (high : s.pwrOk = true) (before after : List StatusReport) (r : StatusReport) :
    exec (.statusReport before.length) (s.withReports (before ++ r :: after)) =
      .next ((s.withReports (before ++ after)).takeReport r) := by
  have found : (s.withReports (before ++ r :: after)).watch.reports[before.length]? = some r := by
    simp [State.withReports]
  have rest : (s.withReports (before ++ r :: after)).watch.reports.eraseIdx before.length = before ++ after := by
    simp only [State.withReports]
    rw [List.eraseIdx_append_of_length_le (Nat.le_refl _), Nat.sub_self, List.eraseIdx_cons_zero]
  rw [exec_statusReport (s := s.withReports (before ++ r :: after)) (by exact high) found, rest]
  rfl

theorem exec_statusReport_taken {s u : State} (high : s.pwrOk = true) {before after : List StatusReport} {r : StatusReport}
    (run : exec (.statusReport before.length) (s.withReports (before ++ r :: after)) = .next u) :
    (s.withReports (before ++ after)).takeReport r = u := by
  rw [exec_statusReport_at high] at run
  exact Host.Outcome.next.inj run

theorem State.withReports_same {s : State} {rs : List StatusReport} (h : s.watch.reports = rs) : s.withReports rs = s := by
  subst h
  rfl

/-- A report in two parts, taken one after the other (R101, R112). -/
theorem exec_statusReport_parts {before after : List StatusReport} {r : StatusReport} {a b : List (Nat × ItemStatus)}
    {s u : State} (high : s.pwrOk = true) (items : r.items = a ++ b)
    (first : exec (.statusReport before.length) (s.withReports (before ++ { r with items := a } :: after)) = .next u)
    (stands : u.classify r.block = s.classify r.block) :
    exec (.statusReport before.length) (s.withReports (before ++ r :: after)) =
      exec (.statusReport before.length) (u.withReports (before ++ { r with items := b } :: after)) := by
  obtain rfl := exec_statusReport_taken high first
  rw [exec_statusReport_at high, State.takeReport_append (s.withReports (before ++ after)) items stands,
    exec_statusReport_at (s := (s.withReports (before ++ after)).takeReport { r with items := a })
      ((State.takeReport_pwrOk ..).trans high), State.withReports_same (rs := before ++ after)
      (State.takeReport_reports (s := s.withReports (before ++ after)) _)]

/-- STATUS_REPORT of a report with one error item, whose class fires. -/
theorem exec_statusReport_single {s : State} {r : StatusReport} {k i line : Nat} {pre post : List (Nat × ItemStatus)}
    {st : ItemStatus} {c : LimitClass} {e : Suspect} (high : s.pwrOk = true) (found : s.watch.reports[k]? = some r)
    (distinct : s.watch.blocks.Nodup) (counted : s.isCounted r.block) (into : s.countsInto r.block i e)
    (items : r.items = pre ++ (line, st) :: post) (ok : ∀ x ∈ pre ++ post, x.2 = .ok) (counts : st.limitClass = some c)
    (limit : s.params.limit c ≤ (e.countOne s.clock.epoch c).count c) (fresh : e.fired c = false) :
    exec (.statusReport k) s =
      .next ((s.withReports (s.watch.reports.eraseIdx k)).fire (s.classify r.block) c i (e.countOne s.clock.epoch c)) :=
  (exec_statusReport high found).trans (congrArg Host.Outcome.next (State.takeReport_single
    (s := s.withReports (s.watch.reports.eraseIdx k)) distinct counted into items ok counts limit fresh))

/-! ### Several firings of one report on a free spare (R101, R112) -/

/-- After the RETIRE firing that retires the spare, the later items count as with the spare still FREE. -/
theorem State.takeReport_retired {w : State} {r : StatusReport} {pre b : List (Nat × ItemStatus)} {line sp i : Nat}
    {st : ItemStatus} {c d : LimitClass} {e : Suspect} (items : r.items = pre ++ (line, st) :: b)
    (ok : ∀ x ∈ pre, x.2 = .ok) (distinct : w.watch.blocks.Nodup) (into : w.countsInto r.block i e)
    (free : w.classify r.block = .freeSpare sp) (counts : st.limitClass = some c) (other : ∀ x, x = c ∨ x = d)
    (ne : c ≠ d) (fresh : e.fired c = false) (limit : w.params.limit c ≤ min 255 (e.count c + 1))
    (retires : w.params.action c = .retire) (quiet : e.noRetire w.params d b) :
    w.takeReport r =
      { State.takeReport { w.takeReport { r with items := pre ++ [(line, st)] } with table := w.table }
          { r with items := b } with
        table := (w.takeReport { r with items := pre ++ [(line, st)] }).table } := by
  have counted : w.isCounted r.block := State.isCounted_iff.mpr (by rw [free]; rfl)
  obtain ⟨place, -⟩ := State.countsInto_place distinct into
  have inside := suspectPlace_lt place
  have reached : w.params.limit c ≤ (e.countOne w.clock.epoch c).count c := by
    rw [Suspect.countOne_count, if_pos rfl]
    exact limit
  have first : w.takeReport { r with items := pre ++ [(line, st)] } = _ :=
    State.takeReport_single (r := { r with items := pre ++ [(line, st)] }) (post := []) distinct counted into rfl
      (by simpa using ok) counts reached fresh
  rw [show State.classify w _ = _ from free, State.fire_retire retires, State.fireRetire_free (classify_freeSpare free)]
    at first
  refine State.takeReport_append_table w (i := i) (by rw [items]; simp)
    (not_all_ok (List.mem_append_right _ (List.mem_singleton_self _)) counts) (State.isCounted_iff.mp counted) place ?_ ?_
  · rw [first]
    rfl
  · rw [first]
    intro f found x
    have same : f = e.countFiring w.clock.epoch c := by
      simp only [State.setSuspect_watch, State.hand_watch, State.setEntry_watch, State.handFiring_watch] at found
      rw [List.getElem?_set_self (by exact inside)] at found
      exact (Option.some.inj (Option.some.inj found)).symm
    subst same
    obtain rfl | rfl := other x
    · exact .inr (.inl (by rw [Suspect.countFiring_fired, if_pos rfl]))
    · refine Suspect.noRetire_of_same quiet ?_ ?_
      · rw [Suspect.countFiring_fired, if_neg ne]
      · rw [Suspect.countFiring_count, if_neg ne]

theorem itemsOf_append (c : LimitClass) (a b : List (Nat × ItemStatus)) : itemsOf c (a ++ b) = itemsOf c a + itemsOf c b := by
  cases c <;> exact List.countP_append

theorem itemsOf_ok (c : LimitClass) {items : List (Nat × ItemStatus)} (ok : ∀ x ∈ items, x.2 = .ok) : itemsOf c items = 0 := by
  cases c <;> exact List.countP_eq_zero.mpr fun x hx => by rw [ok x hx]; decide

theorem itemsOf_error {c d : LimitClass} {st : ItemStatus} (counts : st.limitClass = some c) (line : Nat)
    (items : List (Nat × ItemStatus)) : itemsOf d ((line, st) :: items) = itemsOf d items + if c = d then 1 else 0 := by
  rw [itemsOf_cons, counts]
  simp only [Option.some.injEq]

section Second
variable {u : State} {mid post : List (Nat × ItemStatus)} {line sp i : Nat} {st : ItemStatus} {c d : LimitClass}
  {now : Epoch} {e : Suspect}

/-- The items after the firing that retired the spare, with the firing of the other class among them. -/
theorem State.countItems_second (inside : i < u.watch.suspects.length)
    (retired : entryAt u.table sp = .retired none none false false) (counts : st.limitClass = some d)
    (other : ∀ x, x = c ∨ x = d) (fired : e.fired c = true) (fresh : e.fired d = false)
    (quiet : itemsOf d mid = 0 ∨ e.count d + itemsOf d mid < u.params.limit d)
    (limit : u.params.limit d ≤ ((e.counted u.clock.epoch mid).countOne u.clock.epoch d).count d)
    (retires : u.params.action d = .retire) :
    (mid ++ (line, st) :: post).foldl (fun v x => v.countItem (.freeSpare sp) i x.2) (u.setSuspect i e) =
      State.setSuspect (u.handFiring d ((e.counted u.clock.epoch mid).countOne u.clock.epoch d)) i
        (((e.counted u.clock.epoch mid).countFiring u.clock.epoch d).counted u.clock.epoch post) := by
  obtain ⟨-, -, -, kept⟩ := e.counted_kept u.clock.epoch mid
  have calm : ∀ x, e.quiet u.params x mid := fun x => by
    obtain rfl | rfl := other x
    · exact .inr (.inl fired)
    · exact quiet.imp_right .inr
  have firing := State.countItems_fires (s := u) (pre := []) (line := line) inside (.freeSpare sp) (by simp) counts limit
    ((kept d).trans fresh)
  rw [State.fire_retire retires, State.fireRetire_retired retired, List.nil_append] at firing
  rw [List.append_cons, List.foldl_append, List.foldl_append, State.countItems_quiet inside _ _ _ calm, firing]
  refine State.countItems_quiet (s := u.handFiring d _) (by exact inside) _ _ (Suspect.countFiring ..) fun x => .inr (.inl ?_)
  rw [Suspect.countFiring_fired, kept]
  obtain rfl | rfl := other x
  · rw [fired, ite_self]
  · rw [if_pos rfl]

/-- The entry after both firings counts every error item once. -/
theorem Suspect.counted_twoFirings {line2 : Nat} {st2 : ItemStatus} {pre items : List (Nat × ItemStatus)}
    (order : items = pre ++ (line, st) :: mid ++ (line2, st2) :: post) (ok : ∀ x ∈ pre, x.2 = .ok)
    (counts : st.limitClass = some c) (counts2 : st2.limitClass = some d) (other : ∀ x, x = c ∨ x = d) (ne : c ≠ d) :
    ((((e.countFiring now c).counted now mid).countFiring now d).counted now post) =
      { e with
        ce := min 255 (e.ce + itemsOf .ce items), ue := min 255 (e.ue + itemsOf .ue items), last := now
        ceFired := true, ueFired := true } := by
  obtain ⟨first1, -, denied1⟩ := e.countFiring_kept now c
  obtain ⟨block2, first2, denied2, fired2⟩ := (e.countFiring now c).counted_kept now mid
  obtain ⟨first3, last3, denied3⟩ := ((e.countFiring now c).counted now mid).countFiring_kept now d
  obtain ⟨block4, first4, denied4, fired4⟩ := (((e.countFiring now c).counted now mid).countFiring now d).counted_kept now post
  have count : ∀ x, ((((e.countFiring now c).counted now mid).countFiring now d).counted now post).count x =
      min 255 (e.count x + itemsOf x items) := fun x => by
    rw [order, itemsOf_append, itemsOf_append, itemsOf_ok x ok, itemsOf_error counts, itemsOf_error counts2]
    simp only [Suspect.counted_count, Suspect.countFiring_count]
    obtain rfl | rfl := other x
    · simp only [if_true, if_neg ne.symm]
      split <;> split <;> omega
    · simp only [if_true, if_neg ne]
      split <;> split <;> omega
  refine Suspect.eq_of ?_ (fun x => (count x).trans (by cases x <;> rfl)) ?_ ?_ (fun x => ?_) ?_
  · rw [block4, Suspect.countFiring_block, block2, Suspect.countFiring_block]
  · rw [first4, first3, first2, first1]
  · rw [Suspect.counted_last, last3, ite_self]
  · rw [fired4, Suspect.countFiring_fired, fired2, Suspect.countFiring_fired]
    obtain rfl | rfl := other x
    · rw [if_pos rfl, ite_self]
      cases x <;> rfl
    · rw [if_pos rfl]
      cases x <;> rfl
  · rw [denied4, denied3, denied2, denied1]

end Second

/-- Both classes fire with RETIRE on a spare that was FREE when the report was taken: the second firing writes its limit record
and nothing further. -/
theorem State.takeReport_twoFirings {s : State} {r : StatusReport} {pre mid post : List (Nat × ItemStatus)}
    {line1 line2 sp i : Nat} {st1 st2 : ItemStatus} {c d : LimitClass} {e : Suspect} (distinct : s.watch.blocks.Nodup)
    (free : s.classify r.block = .freeSpare sp) (inTable : sp < s.table.length) (into : s.countsInto r.block i e)
    (items : r.items = pre ++ (line1, st1) :: mid ++ (line2, st2) :: post) (ok : ∀ x ∈ pre, x.2 = .ok)
    (counts1 : st1.limitClass = some c) (counts2 : st2.limitClass = some d) (other : ∀ x, x = c ∨ x = d) (ne : c ≠ d)
    (freshC : e.fired c = false) (freshD : e.fired d = false) (limitC : s.params.limit c ≤ min 255 (e.count c + 1))
    (quiet : itemsOf d mid = 0 ∨ e.count d + itemsOf d mid < s.params.limit d)
    (limitD : s.params.limit d ≤ min 255 (e.count d + itemsOf d mid + 1)) (retiresC : s.params.action c = .retire)
    (retiresD : s.params.action d = .retire) :
    ∃ e1 e2 f : Suspect,
      s.takeReport r =
          State.setSuspect
            ((((s.handFiring c e1).setEntry sp (.retired none none false false)).hand .watch
              (.spareBanned sp .errorLimit)).handFiring d e2) i f ∧
        e1.block = r.block ∧ e1.count c = min 255 (e.count c + 1) ∧ e2.block = r.block ∧
        e2.count d = min 255 (e.count d + itemsOf d mid + 1) ∧
        f =
          { e with
            ce := min 255 (e.ce + itemsOf .ce r.items), ue := min 255 (e.ue + itemsOf .ue r.items)
            last := s.clock.epoch, ceFired := true, ueFired := true } := by
  have block := countsInto_block distinct into
  obtain ⟨inside, taken⟩ := State.takeReport_into distinct (State.isCounted_iff.mpr (by rw [free]; rfl)) into
    (not_all_ok (line := line1) (by rw [items]; simp) counts1)
  have reached : s.params.limit c ≤ (e.countOne s.clock.epoch c).count c := by
    rw [Suspect.countOne_count, if_pos rfl]
    exact limitC
  have firing := State.countItems_fires (line := line1) inside (.freeSpare sp) ok counts1 reached freshC
  rw [State.fire_retire retiresC, State.fireRetire_free (classify_freeSpare free)] at firing
  have reached2 : (((e.countFiring s.clock.epoch c).counted s.clock.epoch mid).countOne s.clock.epoch d).count d =
      min 255 (e.count d + itemsOf d mid + 1) := by
    rw [Suspect.countOne_count, if_pos rfl, Suspect.counted_count, Suspect.countFiring_count, if_neg ne]
    split <;> omega
  obtain ⟨block1, -⟩ := (e.countFiring s.clock.epoch c).counted_kept s.clock.epoch mid
  refine ⟨e.countOne s.clock.epoch c, ((e.countFiring s.clock.epoch c).counted s.clock.epoch mid).countOne s.clock.epoch d, _,
    ?_, ?_, ?_, ?_, reached2, Suspect.counted_twoFirings items ok counts1 counts2 other ne⟩
  · rw [taken, items, show pre ++ (line1, st1) :: mid ++ (line2, st2) :: post =
        (pre ++ [(line1, st1)]) ++ (mid ++ (line2, st2) :: post) by simp, List.foldl_append,
      show s.classify r.block = _ from free, firing]
    refine State.countItems_second (e := e.countFiring s.clock.epoch c) (c := c) (by exact inside)
      (entryAt_set_self (by exact inTable) _) counts2 other ?_ ?_ ?_ ?_ (by exact retiresD)
    · rw [Suspect.countFiring_fired, if_pos rfl]
    · rw [Suspect.countFiring_fired, if_neg ne, freshD]
    · rw [Suspect.countFiring_count, if_neg ne]
      exact quiet
    · exact limitD.trans reached2.ge
  · rw [Suspect.countOne_block, block]
  · rw [Suspect.countOne_count, if_pos rfl]
  · rw [Suspect.countOne_block, block1, Suspect.countFiring_block, block]

/-- Settles O33: one firing by `State.fire`, action by action and class by class; a report in parts; the later items of a report
that has retired its spare; and both firings on that spare. -/
theorem limitFiringActs : Obligations.LimitFiringActs := by
  unfold Obligations.LimitFiringActs
  refine ⟨?_, ?_, ?_, ?_⟩
  · intro k i line n r pre post st c e e1 s high found distinct counted into items ok row hn limit fresh after hafter
    obtain ⟨counts, rfl⟩ : st.limitClass = some c ∧ e1 = e.countOne s.clock.epoch c := by
      obtain ⟨rfl, rfl, rfl⟩ | ⟨rfl, rfl | rfl, rfl⟩ := row <;> exact ⟨rfl, rfl⟩
    have block : (e.countOne s.clock.epoch c).block = r.block := by
      rw [Suspect.countOne_block]
      exact countsInto_block distinct into
    have run := exec_statusReport_single high found distinct counted into items ok counts (hn ▸ limit) fresh
    subst hn
    simp only [hafter]
    refine ⟨fun action => ?_, fun action => ?_, fun action => ⟨fun l serving => ?_, fun sp free => ?_, fun sp target => ?_⟩⟩
    · rw [run, State.fire_none (by exact action)]
      rfl
    · rw [run, State.fire_logged (by exact action), block]
      rfl
    · rw [State.fire_retire (by exact action), State.fireRetire_serving (l := l) (by exact serving)] at run
      refine ⟨fun held => ?_, fun free room => ?_, fun free full => ?_⟩
      · rw [run, State.fireEnqueue_eq (State.enqueue_merged (by exact held)), block]
        rfl
      · rw [run, State.fireEnqueue_eq (State.enqueue_accepted (by exact free) (by exact room)), block]
        rfl
      · rw [run, State.fireEnqueue_eq (State.enqueue_full (by exact free) (by exact full)), block]
        rfl
    · rw [run, State.fire_retire (by exact action), free,
        State.fireRetire_free (s := s.withReports _) (by exact classify_freeSpare free)]
      simp only [State.setSuspect, State.handFiring, State.hand, State.setEntry, block, List.append_assoc, List.cons_append,
        List.nil_append]
      rfl
    · rw [run, State.fire_retire (by exact action), target, ← block]
      rfl
  · intro before after r a b s u high items first stands
    exact exec_statusReport_parts high items first stands
  · intro before after r pre b line sp i st c d e s u v high items ok distinct into free row fresh limit retires quiet first second
    obtain ⟨counts, other, ne⟩ : st.limitClass = some c ∧ (∀ x, x = c ∨ x = d) ∧ c ≠ d := by
      obtain ⟨rfl, rfl, rfl⟩ | ⟨rfl, rfl | rfl, rfl⟩ := row <;>
        exact ⟨rfl, fun x => by cases x <;> simp, by decide⟩
    have left := exec_statusReport_taken high first
    have taken := exec_statusReport_taken (s := { u with table := s.table })
      (by rw [← left]; exact (State.takeReport_pwrOk ..).trans high) second
    refine (exec_statusReport_at (s := s) high before after r).trans (congrArg Host.Outcome.next ?_)
    rw [State.takeReport_retired (w := s.withReports (before ++ after)) items ok distinct into free counts other ne fresh limit
      retires quiet, left, ← taken, State.withReports_same (s := { u with table := s.table }) (rs := before ++ after)
      (by rw [← left]; exact State.takeReport_reports ..)]
    rfl
  · intro k i sp line1 line2 r pre mid post st1 st2 c d e e2 s high found distinct free inTable into items ok row he2 freshC freshD
      limitC quiet limitD retiresC retiresD
    obtain ⟨counts1, counts2, other, ne⟩ :
        st1.limitClass = some c ∧ st2.limitClass = some d ∧ (∀ x, x = c ∨ x = d) ∧ c ≠ d := by
      obtain ⟨rfl, rfl, rfl, rfl | rfl⟩ | ⟨rfl, rfl | rfl, rfl, rfl⟩ := row <;>
        exact ⟨rfl, rfl, fun x => by cases x <;> simp, by decide⟩
    obtain ⟨f1, f2, f, taken, block1, count1, block2, count2, last⟩ :=
      State.takeReport_twoFirings (s := s.withReports (s.watch.reports.eraseIdx k)) distinct free inTable into items ok counts1
        counts2 other ne freshC freshD limitC quiet limitD retiresC retiresD
    rw [exec_statusReport high found, taken, last, he2]
    simp only [State.setSuspect, State.handFiring, State.hand, State.setEntry, block1, block2, count1, count2,
      List.append_assoc, List.cons_append, List.nil_append]
    rfl

end Sys2Proof.Machine
end

section
/-! The patrol unit (R123 to R131). -/

namespace Sys2Proof.Machine

/-! ### Issue attempts (R123 to R125) -/

theorem Context.involves_eq_false {c : Context} {limit p : Nat} :
    c.involves limit p = false ↔
      (∀ m q lock, c = .copying m q lock → m.source ≠ p ∧ limit + m.target ≠ p) ∧
        (∀ m, c = .finishing m → m.source ≠ p ∧ limit + m.target ≠ p) := by
  cases c with
  | idle => exact iff_of_true rfl ⟨(fun _ _ _ h => nomatch h), (fun _ h => nomatch h)⟩
  | copying m q lock =>
    simp only [Context.involves, Bool.or_eq_false_iff, beq_eq_false_iff_ne]
    exact ⟨fun h => ⟨(fun m' _ _ same => by cases same; exact h), (fun _ same => nomatch same)⟩, fun h => h.1 m q lock rfl⟩
  | finishing m =>
    simp only [Context.involves, Bool.or_eq_false_iff, beq_eq_false_iff_ne]
    exact ⟨fun h => ⟨(fun _ _ _ same => nomatch same), fun m' same => by cases same; exact h⟩, fun h => h.2 m rfl⟩

theorem BlockClass.readable_iff {bc : BlockClass} :
    bc.readable = true ↔ (∃ l, bc = .homeInUse l) ∨ (∃ k, bc = .freeSpare k) ∨ ∃ k l, bc = .servingSpare k l := by
  cases bc <;> simp [BlockClass.readable]

theorem State.isLive_iff {s : State} {p : Nat} : s.isLive p = true ↔ s.liveBlock p := by
  rw [State.isLive, Bool.and_eq_true, Bool.not_eq_true', BlockClass.readable_iff, Context.involves_eq_false]
  rfl

section Attempt
variable {s : State}

theorem issueAttempt_live (seeking : s.patrol.state = .seeking) (live : s.liveBlock s.patrol.block) (high : s.pwrOk = true) :
    exec .issueAttempt s = .next (s.setPatrol { s.patrol with state := .offered s.patrol.block s.patrol.quad }) := by
  simp only [exec, execIssueAttempt, issueAttemptEffect, powered, if_pos high, seeking, if_pos (State.isLive_iff.mpr live)]

theorem issueAttempt_skips (seeking : s.patrol.state = .seeking) (dead : ¬s.liveBlock s.patrol.block) (high : s.pwrOk = true) :
    exec .issueAttempt s =
      .next (s.setPatrol { state := .seeking, block := nextBlock s.capacityBlocks s.patrol.block, quad := 0 }) := by
  simp only [exec, execIssueAttempt, issueAttemptEffect, powered, if_pos high, seeking,
    if_neg fun live => dead (State.isLive_iff.mp live)]

theorem issueAttempt_other (other : s.patrol.state.number ≠ 2) : exec .issueAttempt s = .next s := by
  have same : issueAttemptEffect s = s := by
    unfold issueAttemptEffect powered
    split
    · dsimp only
      split
      · next seeking => rw [seeking] at other; exact absurd rfl other
      · rfl
    · rfl
  exact congrArg Host.Outcome.next same

theorem gapExpiry_gap {n : Nat} (gap : s.patrol.state = .gap n) (high : s.pwrOk = true) :
    exec .gapExpiry s =
      .next
        { s with
          clock := { s.clock with now := s.clock.now + (s.params.patrolGap - n) }
          patrol := { s.patrol with state := .seeking } } := by
  simp only [exec, execGapExpiry, gapExpiryEffect, powered, if_pos high, gap, State.setPatrol, State.passMicroseconds,
    PatrolUnit.pass]

theorem gapExpiry_other (other : s.patrol.state.number ≠ 1) : exec .gapExpiry s = .next s := by
  have same : gapExpiryEffect s = s := by
    unfold gapExpiryEffect powered
    split
    · dsimp only
      split
      · next gap => rw [gap] at other; exact absurd rfl other
      · rfl
    · rfl
  exact congrArg Host.Outcome.next same

end Attempt

/-- Settles O36: by the patrol unit's state. -/
theorem patrolAttempts : Obligations.PatrolAttempts := by
  unfold Obligations.PatrolAttempts
  refine ⟨fun n s high gap => gapExpiry_gap gap high, fun s high seeking => ⟨?_, ?_, ?_⟩, fun s => gapExpiry_other,
    fun s => issueAttempt_other⟩
  · exact fun live => issueAttempt_live seeking live high
  · intro dead inside
    rw [issueAttempt_skips seeking dead high, nextBlock, if_pos inside]
    rfl
  · intro dead last
    rw [issueAttempt_skips seeking dead high, nextBlock, if_neg (Nat.not_lt.mpr last)]
    rfl

/-! ### The end of a read (R127 to R131) -/

theorem LineStatus.code_ok_or_corrected {st : LineStatus} : (st.code = 0#2 ∨ st.code = 1#2) ↔ st ≠ .uncorrectable := by
  cases st <;> decide

/-- A read is bad unless it is DATA of the entry's form with every line OK or CORRECTED (R128). -/
theorem answerOf_bad {e : OutEntry} (read : e.dir = .read) (status : BitVec 2) (beats : List ReadBeat) :
    (answerOf e status beats).bad = true ↔
      ¬(status = 0#2 ∧ beats.length = e.size.lines ∧ ∀ y ∈ beats, y.side = 0#2 ∨ y.side = 1#2) := by
  by_cases form : status = 0#2 ∧ beats.length = e.size.lines ∧ ∀ y ∈ beats, y.side ≠ 3#2
  · obtain ⟨data, length, known⟩ := form
    obtain ⟨lines, answer, rfl⟩ := answerOf_data read data length known
    have good : (∀ y ∈ lines.map ReadLine.beat, y.side = 0#2 ∨ y.side = 1#2) ↔ ∀ l ∈ lines, l.status ≠ .uncorrectable := by
      rw [List.forall_mem_map]
      exact forall₂_congr fun l _ => LineStatus.code_ok_or_corrected
    rw [answer, good, Answer.bad, List.any_eq_true]
    simp [data, length]
  · rw [answerOf_read_failed read form]
    refine iff_of_true rfl fun ⟨data, length, good⟩ => form ⟨data, length, fun y hy => ?_⟩
    obtain h | h := good y hy <;> rw [h] <;> decide

section End
variable {s : State} {b q d k : Nat} {t : Tag} {e : OutEntry} {a : Answer} {next : PatrolUnit}

theorem State.patrolEnabled_iff : s.patrolEnabled = true ↔ s.isReady = true ∧ s.prstN = true ∧ s.params.patrolGap ≠ 0 := by
  simp only [State.patrolEnabled, Bool.and_eq_true, bne_iff_ne, and_assoc]

/-- The end of a read, with the cursor a quad on. -/
theorem State.endPatrolRead_eq
    (state : next.state = if s.isReady = true ∧ s.prstN = true ∧ s.params.patrolGap ≠ 0 then .gap 0 else .off)
    (cursor : (s.patrol.quad + 1 < 64 ∧ next.block = s.patrol.block ∧ next.quad = s.patrol.quad + 1) ∨
      (s.patrol.quad = 63 ∧ s.patrol.block + 1 < s.capacityBlocks ∧ next.block = s.patrol.block + 1 ∧ next.quad = 0) ∨
      (s.patrol.quad = 63 ∧ s.capacityBlocks ≤ s.patrol.block + 1 ∧ next.block = 0 ∧ next.quad = 0)) :
    s.endPatrolRead = s.setPatrol next := by
  have advanced : advanceCursor s.capacityBlocks (s.patrol.block, s.patrol.quad) = (next.block, next.quad) := by
    unfold advanceCursor nextBlock
    rw [show Config.quads = 64 from rfl]
    dsimp only
    obtain ⟨inside, block, quad⟩ | ⟨last, inside, block, quad⟩ | ⟨last, beyond, block, quad⟩ := cursor
    · rw [if_pos inside, block, quad]
    · rw [if_neg (by omega), if_pos inside, block, quad]
    · rw [if_neg (by omega), if_neg (Nat.not_lt.mpr beyond), block, quad]
  simp only [State.endPatrolRead, advanced, State.patrolEnabled_iff, ← state]

theorem State.patrolRetire_free (free : entryAt s.table k = .free) :
    s.patrolRetire k =
      (s.setEntry k (.retired none none false false)).hand .patrol (.spareBanned k .patrol) := by
  rw [State.patrolRetire, State.retireIfFree_free free]

theorem State.patrolRetire_other (other : entryAt s.table k ≠ .free) : s.patrolRetire k = s := by
  unfold State.patrolRetire State.retireIfFree
  generalize entryAt s.table k = e at other
  cases e with
  | free => exact absurd rfl other
  | reserved | soft | hard | retired => rfl

/-- The awaited response of a read that retires no spare. -/
theorem patrolResponse_kept (reading : s.patrol.state = .reading b q t d)
    (kept : a.bad = false ∨ b < s.limit ∨ entryAt s.table (b - s.limit) ≠ .free) :
    patrolResponse t a s = s.endPatrolRead := by
  unfold patrolResponse
  rw [reading]
  simp only [if_true]
  split
  next h =>
    obtain ⟨bad, spare⟩ := h
    obtain good | home | other := kept
    · rw [good] at bad
      cases bad
    · omega
    · rw [State.patrolRetire_other other]
  · rfl

/-- The awaited response of a bad read of a free spare. -/
theorem patrolResponse_retires (reading : s.patrol.state = .reading b q t d) (bad : a.bad = true) (spare : s.limit ≤ b)
    (free : entryAt s.table (b - s.limit) = .free) :
    patrolResponse t a s =
      ((s.setEntry (b - s.limit) (.retired none none false false)).hand .patrol
        (.spareBanned (b - s.limit) .patrol)).endPatrolRead := by
  unfold patrolResponse
  rw [reading]
  simp only [if_true]
  rw [if_pos ⟨bad, spare⟩, State.patrolRetire_free free]

theorem patrolResponse_notAwaited (other : ∀ b q d, s.patrol.state ≠ .reading b q t d) : patrolResponse t a s = s := by
  unfold patrolResponse
  split
  next b q t' d reading => exact if_neg fun same => other b q d (by rw [reading, same])
  · rfl

theorem State.writeRemoved_of_patrol (owner : e.owner = .patrol) : s.writeRemoved e = s := by
  unfold State.writeRemoved
  rw [if_neg]
  rw [OutEntry.isRequestWrite_iff, owner]
  rintro ⟨⟨k, h⟩, -⟩
  cases h

theorem State.route_patrol (owner : e.owner = .patrol) : s.route t e a = patrolResponse t a s := by
  rw [State.route, owner]

theorem exec_patrolDeadlineExpiry (reading : s.patrol.state = .reading b q t d) (high : s.pwrOk = true) :
    exec .patrolDeadlineExpiry s =
      .next ((s.advanceTo d).hand .patrol (.respTimeout .patrol b)).endPatrolRead := by
  simp only [exec, execPatrolDeadlineExpiry, patrolDeadlineEffect, powered, if_pos high, reading]

/-- Time passing to a deadline leaves a patrol unit that reads. -/
theorem State.advanceTo_reading (reading : s.patrol.state = .reading b q t d) (m : Nat) :
    s.advanceTo m = { s with clock := { s.clock with now := max s.clock.now m } } := by
  have stands : ∀ gap n, s.patrol.pass gap n = s.patrol := fun gap n => by rw [PatrolUnit.pass, reading]
  rw [State.advanceTo, State.passMicroseconds, stands, show s.clock.now + (m - s.clock.now) = max s.clock.now m by omega]

end End

/-- Settles O37: `State.endPatrolRead_eq`, at the deadline and at the awaited response; another response passes it by. -/
theorem patrolReadEnds : Obligations.PatrolReadEnds := by
  unfold Obligations.PatrolReadEnds
  refine ⟨fun b q d t s next high reading state cursor => ⟨?_, fun status beats e link distinct held owner read => ⟨?_, ?_⟩⟩, ?_⟩
  · rw [exec_patrolDeadlineExpiry reading high, State.advanceTo_reading reading, State.endPatrolRead_eq (next := next)
      (by exact state) (by exact cursor)]
    rfl
  · intro kept
    have good : (answerOf e status beats).bad = false ∨ b < s.limit ∨ entryAt s.table (b - s.limit) ≠ .free := by
      obtain home | other | good := kept
      · exact .inr (.inl home)
      · exact .inr (.inr other)
      · exact .inl ((Bool.not_eq_true _).mp fun bad => (answerOf_bad read status beats).mp bad good)
    rw [exec_readResponse high link distinct held read, State.route_patrol owner,
      patrolResponse_kept (by exact reading) (by exact good), State.endPatrolRead_eq (next := next) (by exact state)
      (by exact cursor)]
    exact ⟨_, rfl, rfl, rfl, rfl, rfl⟩
  · intro spare free bad
    rw [exec_readResponse high link distinct held read, State.route_patrol owner,
      patrolResponse_retires (by exact reading) ((answerOf_bad read status beats).mpr bad) (by exact spare) (by exact free),
      State.endPatrolRead_eq (next := next) (by exact state) (by exact cursor)]
    exact ⟨_, rfl, rfl, rfl, rfl, rfl, rfl, rfl⟩
  · intro tag status beats e s high link distinct held owner other
    rw [exec_downstreamResponse high link distinct held, State.writeRemoved_of_patrol owner, State.route_patrol owner,
      patrolResponse_notAwaited (by rw [State.reportStatuses_patrol]; exact other)]
    cases dir : e.dir with
    | read =>
      simp only [State.reportStatuses, dir, Bool.false_eq_true, if_false, reportOf_answerOf dir]
      exact ⟨_, rfl, rfl, rfl, rfl⟩
    | write =>
      simp only [State.reportStatuses, dir, reduceCtorEq, if_false, List.append_nil]
      exact ⟨_, rfl, rfl, rfl, rfl⟩

end Sys2Proof.Machine
end

section
/-! Programming a fuse slot and verifying it (R163 to R165). -/

namespace Sys2Proof.Machine

/-! ### Bits of a fuse word -/

theorem fieldMask_bit : ∀ j < 40, (0x7FFFFFFF00#40).getLsbD j = (decide (8 ≤ j) && decide (j < 39)) := by decide

theorem bodyMask_bit : ∀ j < 40, (0x7FFFFFFFFF#40).getLsbD j = decide (j < 39) := by decide

theorem markerBit_bit : ∀ j < 40, (fuseBit 39).getLsbD j = decide (j = 39) := by decide

/-- Every field bit of the record has been reported. -/
theorem fieldBits_reported_iff {w r : FuseWord} :
    fieldBits w &&& ~~~r = 0#40 ↔ ∀ j, 8 ≤ j → j < 39 → w.getLsbD j = true → r.getLsbD j = true := by
  have bit : ∀ j < 40, (fieldBits w &&& ~~~r).getLsbD j = (w.getLsbD j && (decide (8 ≤ j) && decide (j < 39)) && !r.getLsbD j) :=
    fun j hj => by
      simp only [fieldBits, BitVec.getLsbD_and, BitVec.getLsbD_not, fieldMask_bit j hj, hj, decide_true, Bool.true_and]
  constructor
  · intro zero j low high set
    have := bit j (by omega)
    rw [zero] at this
    simpa [set, low, high] using this
  · intro all
    refine BitVec.eq_of_getLsbD_eq fun j hj => ?_
    rw [bit j hj, BitVec.getLsbD_zero]
    cases set : w.getLsbD j with
    | false => rfl
    | true =>
      by_cases field : 8 ≤ j ∧ j < 39
      · simp [all j field.1 field.2 set]
      · simp only [Bool.true_and, ← Bool.decide_and, decide_eq_false field, Bool.false_and]

theorem applyingBit_iff {w r : FuseWord} {i : Nat} :
    applyingBit w r i = true ↔
      i < 39 ∧ w.getLsbD i = true ∧ r.getLsbD i = false ∧
        (8 ≤ i ∨ ∀ j, 8 ≤ j → j < 39 → w.getLsbD j = true → r.getLsbD j = true) := by
  rw [← fieldBits_reported_iff]
  simp only [applyingBit, Bool.and_eq_true, Bool.or_eq_true, decide_eq_true_eq, Bool.not_eq_true', beq_iff_eq, and_assoc]

theorem markerBits_marker (w r : FuseWord) (holds : Bool) : (markerBits w r holds).getLsbD 39 = holds := by
  have body := bodyMask_bit 39 (by decide)
  have marker := markerBit_bit 39 (by decide)
  simp only [markerBits, bodyBits, BitVec.getLsbD_or, BitVec.getLsbD_and, body]
  cases holds with
  | true => simp only [if_true, marker, decide_true, Bool.or_true]
  | false => simp

theorem markerBits_body (w r : FuseWord) (holds : Bool) {j : Nat} (body : j < 39) :
    (markerBits w r holds).getLsbD j = (w.getLsbD j && !r.getLsbD j) := by
  have bit := bodyMask_bit j (by omega)
  have marker := markerBit_bit j (by omega)
  have unmarked : (if holds = true then fuseBit 39 else 0#40).getLsbD j = false := by
    cases holds with
    | true => rw [if_pos rfl, marker, decide_eq_false (by omega)]
    | false => rw [if_neg (by decide), BitVec.getLsbD_zero]
  simp only [markerBits, bodyBits, BitVec.getLsbD_or, BitVec.getLsbD_and, BitVec.getLsbD_not, bit, unmarked, body,
    show j < 40 by omega, decide_true, Bool.and_true, Bool.true_and, Bool.or_false]

/-! ### Programming (R163) -/

section Programming
variable {s : State} {slot timer bit : Nat} {record : FuseRecord} {reported w : FuseWord}

theorem State.burn_eq (word : s.fuseArray[slot]? = some w) (bits : FuseWord) :
    s.burn slot bits = { s with fuseArray := s.fuseArray.set slot (w ||| bits) } := by
  rw [State.burn, setFuse, List.getD_eq_getElem?_getD, word]
  rfl

theorem State.burn_nothing (word : s.fuseArray[slot]? = some w) : s.burn slot 0#40 = s := by
  rw [State.burn_eq word, BitVec.or_zero, set_of_getElem? word]

theorem exec_bitProgrammed (high : s.pwrOk = true) (prog : s.fuse.programmer = .programming slot record timer reported)
    (holds : Bool) :
    exec (.bitProgrammed bit holds) s =
      .next
        (if applyingBit record.word reported bit then
          (s.setProgrammer (.programming slot record timer (reported ||| fuseBit bit))).burn slot
            (if holds then fuseBit bit else 0#40)
        else s) := by
  simp only [exec, execBitProgrammed, bitProgrammedEffect, powered, if_pos high, prog]

theorem exec_markerProgrammed (high : s.pwrOk = true) (prog : s.fuse.programmer = .programming slot record timer reported)
    (word : s.fuseArray[slot]? = some w) (holds : Bool) :
    exec (.markerProgrammed holds) s =
      .next
        { s with
          fuseArray := s.fuseArray.set slot (w ||| markerBits record.word reported holds)
          fuse := { s.fuse with programmer := .verifying slot record timer } } := by
  simp only [exec, execMarkerProgrammed, markerProgrammedEffect, powered, if_pos high, prog]
  exact congrArg Host.Outcome.next (State.burn_eq (by exact word) _)

theorem exec_programmingTimeout (high : s.pwrOk = true)
    (prog : s.fuse.programmer = .programming slot record timer reported) :
    exec .programmingTimeout s = .next (s.passMilliseconds (190 - timer)) := by
  simp only [exec, execProgrammingTimeout, programmingTimeoutEffect, powered, if_pos high, prog]
  rfl

/-- With the programmer IDLE or VERIFYING nothing is programmed. -/
theorem exec_notProgramming (other : ∀ slot record timer reported, s.fuse.programmer ≠ .programming slot record timer reported) :
    (∀ (bit : Nat) (holds : Bool), exec (.bitProgrammed bit holds) s = .next s) ∧
      (∀ holds : Bool, exec (.markerProgrammed holds) s = .next s) ∧ exec .programmingTimeout s = .next s := by
  simp only [exec, execBitProgrammed, bitProgrammedEffect, execMarkerProgrammed, markerProgrammedEffect,
    execProgrammingTimeout, programmingTimeoutEffect, powered]
  cases prog : s.fuse.programmer with
  | idle | verifying => simp only [ite_self, implies_true, and_self]
  | programming slot record timer reported => exact absurd prog (other slot record timer reported)

/-- EPOCH_TICK executed d times is d ticks. -/
theorem ticks_eq_passMilliseconds (high : s.pwrOk = true) (inTime : s.fuse.programmer.inTime) {t : Nat → State} (start : t 0 = s)
    (run : ∀ j, exec .epochTick (t j) = .next (t (j + 1))) (d : Nat) : t (d + 1) = s.passMilliseconds (d + 1) := by
  induction d with
  | zero =>
    have tick := run 0
    rw [start, exec_epochTick high] at tick
    exact (Host.Outcome.next.inj tick).symm
  | succ d ih =>
    have tick := run (d + 1)
    rw [ih, exec_epochTick ((State.passMilliseconds_pwrOk ..).trans high)] at tick
    rw [State.passMilliseconds_succ s (Nat.succ_ne_zero d) inTime]
    exact (Host.Outcome.next.inj tick).symm

theorem Programmer.pass_timeout :
    (Programmer.programming slot record timer reported).pass (190 - timer) =
      .verifying slot record (min 200 (max timer 190)) := by
  rw [Programmer.pass, if_neg (by rw [show Config.programmingLimit = 190 from rfl]; omega),
    show timer + (190 - timer) = max timer 190 by omega]
  rfl

theorem WatchUnit.pass_counts {u : WatchUnit} {period d : Nat} (notDue : u.decayDue = false) (below : u.decayCount + d < period) :
    u.pass period d = { u with decayCount := u.decayCount + d } := by
  by_cases some : d = 0
  · subst some
    exact u.pass_zero period
  · rw [WatchUnit.pass_below u some below, WatchUnit.takeDue_of_not notDue, ← notDue]

/-- Ticks leave the patrol unit's cursor and the form of its state. -/
theorem State.passMilliseconds_cursor (s : State) (d : Nat) :
    (s.passMilliseconds d).patrol.block = s.patrol.block ∧ (s.passMilliseconds d).patrol.quad = s.patrol.quad ∧
      (s.passMilliseconds d).patrol.state.number = s.patrol.state.number := by
  by_cases some : d = 0
  · subst some
    exact ⟨rfl, rfl, rfl⟩
  · exact s.passMilliseconds_patrol some

end Programming

/-- Settles O42: `applyingBit_iff` says which bits are taken; the timeout is the ticks lacking to 190. -/
theorem programmingSteps : Obligations.ProgrammingSteps := by
  unfold Obligations.ProgrammingSteps
  refine ⟨fun s => exec_notProgramming, fun slot timer record reported w s high prog word => ⟨?_, ?_, ?_, ?_⟩⟩
  · intro bit holds inside set fresh order
    rw [exec_bitProgrammed high prog, if_pos (applyingBit_iff.mpr ⟨inside, set, fresh, order⟩)]
    cases holds with
    | true => exact congrArg Host.Outcome.next (State.burn_eq (by exact word) _)
    | false => exact congrArg Host.Outcome.next (State.burn_nothing (by exact word))
  · intro bit holds other
    rw [exec_bitProgrammed high prog, if_neg]
    intro applying
    obtain ⟨inside, set, fresh, order⟩ := applyingBit_iff.mp applying
    obtain beyond | unset | known | ⟨check, j, low, below, field, unreported⟩ := other
    · omega
    · rw [set] at unset; cases unset
    · rw [fresh] at known; cases known
    · obtain inField | all := order
      · omega
      · rw [all j low below field] at unreported; cases unreported
  · intro holds
    refine ⟨_, _, exec_markerProgrammed high prog word holds, rfl, ?_, fun j body => ?_, rfl, rfl⟩
    · rw [BitVec.getLsbD_or, markerBits_marker]
    · rw [BitVec.getLsbD_or, markerBits_body _ _ _ body]
  · obtain ⟨block, quad, number⟩ := s.passMilliseconds_cursor (190 - timer)
    refine ⟨_, exec_programmingTimeout high prog, ?_, s.passMilliseconds_epoch _, fun notDue below => ?_, fun early t start run => ?_,
      block, quad, number, s.passMilliseconds_rest _⟩
    · rw [State.passMilliseconds_fuse, prog, Programmer.pass_timeout]
    · rw [State.passMilliseconds_watch, WatchUnit.pass_counts notDue below]
    · rw [show 190 - timer = (190 - timer - 1) + 1 by omega]
      exact ticks_eq_passMilliseconds high (by rw [prog]; exact early) start run _

/-! ### Verification (R164, R165) -/

theorem exec_endOfVerifying {s : State} {slot timer : Nat} {record : FuseRecord} (high : s.pwrOk = true)
    (verifying : s.fuse.programmer = .verifying slot record timer) :
    exec .endOfVerifying s = .next (s.endVerify slot record) := by
  simp only [exec, execEndOfVerifying, endOfVerifyingEffect, powered, if_pos high, verifying]

/-- The entry after VERIFYING, by the kind of the record. -/
theorem Entry.verified_of {old new : Entry} {record : FuseRecord} {slot : Nat} {c : Prop} [Decidable c]
    (row : (∃ l p, record.kind = .map ∧ old = .soft l p ∧ new = if c then .hard l slot else .soft l false) ∨
      (∃ l k p, record.kind = .ban ∧ old = .retired l k false p ∧
        new = if c then .retired l (some slot) true false else .retired l k false false)) :
    old.verified record slot (decide c) = new := by
  obtain ⟨l, p, kind, rfl, rfl⟩ | ⟨l, k, p, kind, rfl, rfl⟩ := row
  · cases record with
    | ban => cases kind
    | map => by_cases h : c <;> simp [Entry.verified, Entry.clearPending, h]
  · cases record with
    | map => cases kind
    | ban => by_cases h : c <;> simp [Entry.verified, Entry.clearPending, h]

/-- Settles O43: `Entry.verified_of`, by the kind of the record. -/
theorem verifyEnds : Obligations.VerifyEnds := by
  unfold Obligations.VerifyEnds
  intro slot timer record w old new s high verifying word entry row
  have stored : s.fuseArray.getD slot 0#40 = w := by rw [List.getD_eq_getElem?_getD, word]; rfl
  rw [exec_endOfVerifying high verifying, State.endVerify]
  simp only [stored, entry, beq_eq_decide, Entry.verified_of row]
  simp only [verifiedImage, verifiedRecord, decide_eq_true_eq]
  rfl

end Sys2Proof.Machine
end

section
/-! Frames and fault records as bytes (R172 to R177, R203). -/

namespace Sys2Proof.Machine

/-! ### The bytes of a fault record (R203, 11.4) -/

/-- A record's bytes by the columns of its kind. -/
theorem FaultRecord.bytes_eq_row {r : FaultRecord} {body : RecordBody} (h : r.body = body) {flags : Nat}
    (flag : flagBit body.lPresent 6 + body.causeCode = flags) :
    r.bytes = r.row body.kindCode flags (body.operands ++ List.replicate (7 - body.operands.length) 0#8) := by
  subst h flag
  rw [FaultRecord.bytes, FaultRecord.row, List.append_assoc, Nat.add_assoc]
  rfl

/-- Settles O40: `FaultRecord.bytes_eq_row`, kind by kind. -/
theorem recordEncoding : Obligations.RecordEncoding := by
  unfold Obligations.RecordEncoding
  intro r
  refine ⟨r.length_bytes, fun p l count cause h => FaultRecord.bytes_eq_row h ?_, fun p l count cause h =>
    FaultRecord.bytes_eq_row h ?_, fun l line p h => FaultRecord.bytes_eq_row h rfl, fun l p sp h => FaultRecord.bytes_eq_row h rfl,
    fun l cause h => FaultRecord.bytes_eq_row h ?_, fun l cause h => FaultRecord.bytes_eq_row h ?_, fun l sp cause h =>
    FaultRecord.bytes_eq_row h ?_, fun l h => FaultRecord.bytes_eq_row h rfl, fun sp cause h => FaultRecord.bytes_eq_row h ?_,
    fun origin p h => FaultRecord.bytes_eq_row h ?_, fun p h => FaultRecord.bytes_eq_row h rfl, fun slot sp kind h =>
    FaultRecord.bytes_eq_row h ?_, fun slot sp h => FaultRecord.bytes_eq_row h rfl, fun slot cause h =>
    FaultRecord.bytes_eq_row h ?_, fun p h => FaultRecord.bytes_eq_row h rfl⟩
  case refine_1 | refine_2 => cases l <;> cases cause <;> rfl
  case refine_3 | refine_4 | refine_5 | refine_6 | refine_9 => cases cause <;> rfl
  case refine_7 => cases origin <;> rfl
  case refine_8 => cases kind <;> rfl

/-! ### Frames read (R174 to R177) -/

theorem readFrameOpening_eq : readFrameOpening = [0x02#8, 0x00#8, 0x2A#8] := by decide +kernel

theorem frameBytes_eq (code : Byte) (args : List Byte) :
    frameBytes code args =
      code :: BitVec.ofNat 8 args.length :: (args ++ [crc8 (code :: BitVec.ofNat 8 args.length :: args)]) := rfl

section Frames
variable {code n : Byte} {args rest : List Byte} {p : Bool}

theorem frameOf_opening (after : List Byte) : frameOf ([0x02#8, 0x00#8, 0x2A#8] ++ after) p = .readFrame :=
  if_pos (by rw [readFrameOpening_eq]; rfl)

theorem take_ne_opening {bytes : List Byte} (few : bytes.length < 3) : bytes.take 3 ≠ readFrameOpening := fun h => by
  have := congrArg List.length h
  rw [List.length_take, readFrameOpening_eq] at this
  simp only [List.length_cons, List.length_nil] at this
  omega

theorem frameOf_few {bytes : List Byte} (few : bytes.length < 2) : frameOf bytes p = .malformed .short := by
  match bytes with
  | [] | [_] => exact if_neg (take_ne_opening (by simp))
  | _ :: _ :: _ => simp at few

variable (other : (code :: n :: rest).take 3 ≠ readFrameOpening)
include other

theorem frameOf_length (long : 12 < n.toNat) : frameOf (code :: n :: rest) p = .malformed .length := by
  rw [frameOf, if_neg other]
  exact if_pos long

variable (fits : n.toNat ≤ 12)
include fits

theorem frameOf_short (short : rest.length < n.toNat + 1) : frameOf (code :: n :: rest) p = .malformed .short := by
  rw [frameOf, if_neg other]
  simp only [if_neg (Nat.not_lt.mpr fits), if_pos short]

variable (whole : n.toNat + 1 ≤ rest.length)
include whole

theorem frameOf_check (bad : crc8 (code :: n :: rest) ≠ 0#8) : frameOf (code :: n :: rest) p = .malformed .check := by
  rw [frameOf, if_neg other]
  simp only [if_neg (Nat.not_lt.mpr fits), if_neg (Nat.not_lt.mpr whole), if_pos bad]

theorem frameOf_long (good : crc8 (code :: n :: rest) = 0#8) (more : n.toNat + 1 < rest.length ∨ p = true) :
    frameOf (code :: n :: rest) p = .malformed .long := by
  rw [frameOf, if_neg other]
  simp only [if_neg (Nat.not_lt.mpr fits), if_neg (Nat.not_lt.mpr whole), if_neg (not_not_intro good), if_pos more]

theorem frameOf_command (good : crc8 (code :: n :: rest) = 0#8) (exact_ : rest.length = n.toNat + 1) :
    frameOf (code :: n :: rest) false = .command code (rest.take n.toNat) := by
  rw [frameOf, if_neg other]
  simp only [if_neg (Nat.not_lt.mpr fits), if_neg (Nat.not_lt.mpr whole), if_neg (not_not_intro good)]
  exact if_neg fun h => h.elim (fun h => by omega) (fun h => by cases h)

end Frames

section Round
variable {code : Byte} {args : List Byte}

theorem argLength_toNat (fits : args.length ≤ 12) : (BitVec.ofNat 8 args.length).toNat = args.length := by
  rw [BitVec.toNat_ofNat, Nat.mod_eq_of_lt (by omega)]

/-- The frame of a command is no read frame, nor does it begin as one. -/
theorem frameBytes_notOpening (fits : args.length ≤ 12) (other : ¬(code = 0x02#8 ∧ args = [])) :
    (frameBytes code args).take 3 ≠ readFrameOpening := by
  intro h
  rw [readFrameOpening_eq, frameBytes_eq] at h
  obtain ⟨first, rest⟩ := List.cons.inj h
  obtain ⟨second, -⟩ := List.cons.inj rest
  have none : args.length = 0 := (argLength_toNat fits).symm.trans (congrArg BitVec.toNat second)
  exact other ⟨first, List.length_eq_zero_iff.mp none⟩

theorem crc8_frameBytes (code : Byte) (args : List Byte) : crc8 (frameBytes code args) = 0#8 := crc8_append_check _

theorem frameOf_frameBytes (fits : args.length ≤ 12) (other : ¬(code = 0x02#8 ∧ args = [])) :
    frameOf (frameBytes code args) false = .command code args := by
  have number := argLength_toNat fits
  have read := frameOf_command (frameBytes_notOpening fits other) (number.trans_le fits) (by simp [number])
    (crc8_frameBytes code args) (by simp [number])
  rw [number] at read
  exact read.trans (congrArg (Frame.command code) List.take_left)

theorem frameOf_frameBytes_partial (fits : args.length ≤ 12) (other : ¬(code = 0x02#8 ∧ args = [])) :
    frameOf (frameBytes code args) true = .malformed .long := by
  have number := argLength_toNat fits
  exact frameOf_long (frameBytes_notOpening fits other) (number.trans_le fits) (by simp [number]) (crc8_frameBytes code args)
    (.inr rfl)

/-- A frame cut short is SHORT. -/
theorem frameOf_take {n : Nat} (fits : args.length ≤ 12) (p : Bool) (short : n < (frameBytes code args).length) :
    frameOf ((frameBytes code args).take n) p = .malformed .short := by
  have number := argLength_toNat fits
  rw [length_frameBytes] at short
  match n with
  | 0 | 1 => exact frameOf_few (by simp)
  | n + 2 =>
    have notOpening : ((frameBytes code args).take (n + 2)).take 3 ≠ readFrameOpening := by
      by_cases other : code = 0x02#8 ∧ args = []
      · obtain ⟨-, rfl⟩ := other
        exact take_ne_opening (by rw [List.length_take]; simp at short; omega)
      · by_cases few : n = 0
        · exact take_ne_opening (by rw [List.length_take]; omega)
        · rw [List.take_take, Nat.min_eq_left (by omega)]
          exact frameBytes_notOpening fits other
    exact frameOf_short notOpening (number.trans_le fits) (by rw [List.length_take, number]; omega)

end Round

/-- The levels of bytes and of fewer than eight more. -/
theorem frameOfBits_append (bytes : List Byte) {more : List Bool} (few : more.length < 8) :
    frameOfBits (bitsOf bytes ++ more) = frameOf bytes (decide (more ≠ [])) := by
  have ends : endsPartial (bitsOf bytes ++ more) = decide (more ≠ []) := by
    rw [endsPartial, List.length_append, length_bitsOf, Nat.mul_add_mod, Nat.mod_eq_of_lt few]
    cases more <;> simp
  rw [frameOfBits, bytesOfBits_bitsOf_append bytes few, ends]

/-- Settles O53: `frameOf_frameBytes`, `frameOf_take` and `frameOfBits_append`. -/
theorem frameRoundTrip : Obligations.FrameRoundTrip := by
  unfold Obligations.FrameRoundTrip
  intro code args fits
  refine ⟨fun other => ⟨frameOf_frameBytes fits other, frameOf_frameBytes_partial fits other⟩, fun more p => ?_,
    fun n p short => frameOf_take fits p short, fun bytes more few => frameOfBits_append bytes few⟩
  rw [show frameBytes 0x02#8 [] = [0x02#8, 0x00#8, 0x2A#8] from readFrameOpening_eq]
  exact frameOf_opening more

end Sys2Proof.Machine
end

section
/-! The end of a frame (R172 to R178, R182, R196, R200). -/

namespace Sys2Proof.Machine

/-! ### What the levels of a frame do -/

section EndFrame
variable {s : State} {bytes : List Byte} {more : List Bool} (few : more.length < 8)
include few

theorem endFrame_readFrame (read : frameOf bytes (decide (more ≠ [])) = .readFrame) :
    endFrame (bitsOf bytes ++ more) s = atPort s fun s => s.sendResult (bytes.length - 3) := by
  rw [← frameOfBits_append bytes few] at read
  simp only [endFrame, read, bytesOfBits_bitsOf_append bytes few]

theorem endFrame_malformed {reason : FrameReason} (frames : s.takesFrames)
    (malformed : frameOf bytes (decide (more ≠ [])) = .malformed reason) :
    endFrame (bitsOf bytes ++ more) s =
      s.holdResult (bytes.headD 0#8) .frame (framePayload reason bytes.length) bytes.length := by
  rw [← frameOfBits_append bytes few] at malformed
  simp only [endFrame, malformed, bytesOfBits_bitsOf_append bytes few, atPort_of_takes frames]

theorem endFrame_command {code : Byte} {args : List Byte}
    (command : frameOf bytes (decide (more ≠ [])) = .command code args) :
    endFrame (bitsOf bytes ++ more) s = runFrame code args s := by
  rw [← frameOfBits_append bytes few] at command
  simp only [endFrame, command]

end EndFrame

section Run
variable {s : State} {c : Command} {code : Byte} {args : List Byte}

theorem runFrame_code (c : Command) (args : List Byte) (s : State) : runFrame c.code args s = runCommand c args s := by
  rw [runFrame, Command.ofCode_code]

theorem Command.code_ofCode (h : Command.ofCode code = some c) : c.code = code := by
  simpa using List.find?_some h

theorem runFrame_unassigned (none : ∀ c : Command, c.code ≠ code) :
    runFrame code args s = atPort s fun s => s.holdResult code .unknown [] (args.length + 3) := by
  have unassigned : Command.ofCode code = .none :=
    Option.eq_none_iff_forall_ne_some.mpr fun c h => none c (Command.code_ofCode h)
  rw [runFrame, unassigned]
  rfl

/-- The instruction of a command with no event ahead is the command's run. -/
theorem exec_instr_runCommand (c : Command) (args : List Byte) (s : State) :
    exec (c.instr args) s = .next (runCommand c args s) := by
  cases c <;> rfl

theorem Command.eq_resultRead (h : c.code = 0x02#8) : c = .resultRead := by
  have same := congrArg Command.ofCode h
  rw [Command.ofCode_code, show Command.ofCode 0x02#8 = some .resultRead from Command.ofCode_code .resultRead] at same
  exact Option.some.inj same

/-- The codes of 11.3. -/
theorem Command.code_mem (c : Command) :
    c.code ∈ [0x01#8, 0x02#8, 0x03#8, 0x04#8, 0x10#8, 0x11#8, 0x12#8, 0x13#8, 0x20#8, 0x21#8, 0x22#8, 0x23#8, 0x30#8,
      0x31#8, 0x32#8, 0x40#8, 0x41#8, 0x50#8, 0x51#8, 0x52#8] := by
  cases c <;> decide

end Run

/-! ### MCS_N low since the rise of PWR_OK (R173) -/

section NoFrame
variable {s : State} (high : s.pwrOk = true) (noFrame : s.port.mcs = .lowNoFrame)
include high noFrame

theorem command_noFrame (c : Command) (args : List Byte) (run : State → Reply) : command c args s run = s.raiseMcs :=
  atPort_of_noFrame high noFrame _

theorem resultReadEffect_noFrame (args : List Byte) (clocked : Nat) : resultReadEffect args clocked s = s.raiseMcs := by
  unfold resultReadEffect
  split
  · exact atPort_of_noFrame high noFrame _
  · exact command_noFrame high noFrame ..

theorem exec_instr_noFrame (c : Command) (args : List Byte) (ahead : List StatusUnit) :
    exec (c.instr args ahead) s = .next s.raiseMcs := by
  cases c
  case resultRead => exact congrArg Host.Outcome.next (resultReadEffect_noFrame high noFrame args 0)
  all_goals exact congrArg Host.Outcome.next (command_noFrame high noFrame ..)

theorem runFrame_noFrame (code : Byte) (args : List Byte) : runFrame code args s = s.raiseMcs := by
  unfold runFrame
  split
  next c _ => exact Host.Outcome.next.inj ((exec_instr_runCommand c args s).symm.trans (exec_instr_noFrame high noFrame c args []))
  · exact atPort_of_noFrame high noFrame _

theorem endFrame_noFrame (msi : List Bool) : endFrame msi s = s.raiseMcs := by
  unfold endFrame
  dsimp only
  split
  · exact atPort_of_noFrame high noFrame _
  · exact atPort_of_noFrame high noFrame _
  · exact runFrame_noFrame high noFrame ..

end NoFrame

/-- Settles O47: the levels spell bytes, and each row of the tests of R177 is a lemma `frameOf_…`. -/
theorem framesEnd : Obligations.FramesEnd := by
  unfold Obligations.FramesEnd
  refine ⟨?_, fun code args s frames unassigned => ?_, ?_⟩
  · intro bytes more edges msi s held frames few levels hheld
    have run : exec (.malformedFrame edges msi) s = .next (endFrame (bitsOf bytes ++ more) s) :=
      congrArg (fun l => Host.Outcome.next (endFrame l s)) levels
    have malformed : ∀ {reason : FrameReason}, frameOf bytes (decide (more ≠ [])) = .malformed reason →
        exec (.malformedFrame edges msi) s = .next (held reason.byte) := fun h => by
      rw [run, endFrame_malformed few frames h, hheld]
      rfl
    refine ⟨fun short => malformed (frameOf_few short), ?_, ?_, ?_, ?_⟩
    · rintro code n rest rfl other
      rw [← readFrameOpening_eq] at other
      refine ⟨fun long => malformed (frameOf_length other long), fun fits short => malformed (frameOf_short other fits short),
        fun fits whole bad => malformed (frameOf_check other fits whole bad), fun fits more_ good => ?_⟩
      have long : n.toNat + 1 < rest.length ∨ decide (more ≠ []) = true := by
        obtain longer | ⟨-, some⟩ := more_
        · exact .inl longer
        · exact .inr (decide_eq_true some)
      exact malformed (frameOf_long other fits (by omega) good long)
    · rintro after rfl
      rw [run, endFrame_readFrame few (frameOf_opening after)]
      refine congrArg Host.Outcome.next ?_
      rw [resultReadEffect, if_pos rfl]
      simp
    · rintro c args fits rfl rfl
      rw [run, exec_instr_runCommand]
      refine congrArg Host.Outcome.next ?_
      by_cases opening : c.code = 0x02#8 ∧ args = []
      · obtain ⟨code, rfl⟩ := opening
        obtain rfl := Command.eq_resultRead code
        have read : frameOf (frameBytes Command.resultRead.code []) (decide (([] : List Bool) ≠ [])) = .readFrame := by
          rw [show frameBytes Command.resultRead.code [] = [0x02#8, 0x00#8, 0x2A#8] from readFrameOpening_eq]
          exact frameOf_opening []
        rw [endFrame_readFrame few read]
        rfl
      · rw [endFrame_command few (frameOf_frameBytes fits opening), runFrame_code]
    · rintro code args fits rfl unassigned rfl
      rw [run, endFrame_command few (frameOf_frameBytes fits fun h => unassigned .resultRead h.1.symm)]
      rfl
  · have none : ∀ c : Command, c.code ≠ code := fun c same => unassigned (same ▸ c.code_mem)
    refine congrArg Host.Outcome.next ?_
    rw [runFrame_unassigned none, atPort_of_takes frames]
    rfl
  · rintro i s high noFrame (⟨n, msi, rfl⟩ | ⟨code, args, rfl⟩ | ⟨args, clocked, rfl⟩ | ⟨c, args, ahead, rfl⟩)
    · exact congrArg Host.Outcome.next (endFrame_noFrame high noFrame _)
    · exact congrArg Host.Outcome.next (runFrame_noFrame high noFrame ..)
    · exact congrArg Host.Outcome.next (resultReadEffect_noFrame high noFrame ..)
    · exact exec_instr_noFrame high noFrame c args ahead

end Sys2Proof.Machine
end

section
/-! The bits of a fuse record (R150, R151, R167, R199). -/

namespace Sys2Proof.Machine

/-! ### Fields of a word as numbers -/

/-- Bits put before others, as a number. -/
theorem append_toNat {m n : Nat} (x : BitVec m) (y : BitVec n) : (x ++ y).toNat = x.toNat * 2 ^ n + y.toNat := by
  rw [BitVec.toNat_append, ← Nat.shiftLeft_add_eq_or_of_lt y.isLt, Nat.shiftLeft_eq]

theorem extract_toNat {m : Nat} (w : BitVec m) (start length : Nat) :
    (w.extractLsb' start length).toNat = w.toNat / 2 ^ start % 2 ^ length := by
  rw [BitVec.extractLsb'_toNat, Nat.shiftRight_eq_div_pow]

theorem getLsbD_eq_decide {m : Nat} (w : BitVec m) (i : Nat) : w.getLsbD i = decide (w.toNat / 2 ^ i % 2 = 1) := by
  rw [← BitVec.testBit_toNat, Nat.testBit_eq_decide_div_mod_eq]

section Record
variable (l s : Nat) (w : FuseWord) (r : FuseRecord)

theorem FuseRecord.head_map_toNat :
    (FuseRecord.map l s).head.toNat = 2147483648 + l % 1048576 * 1024 + s % 128 * 8 := by
  simp only [FuseRecord.head, append_toNat, BitVec.toNat_ofNat]
  omega

theorem FuseRecord.head_ban_toNat : (FuseRecord.ban s).head.toNat = 3221225472 + s % 128 * 8 := by
  simp only [FuseRecord.head, append_toNat, BitVec.toNat_ofNat]
  omega

theorem FuseRecord.word_toNat : r.word.toNat = r.head.toNat * 256 + (fuseCheck r.head).toNat := append_toNat _ _

theorem FuseRecord.word_head : r.word.extractLsb' 8 32 = r.head := by
  apply BitVec.eq_of_toNat_eq
  rw [extract_toNat, FuseRecord.word_toNat]
  omega

theorem FuseRecord.word_check : r.word.extractLsb' 0 8 = fuseCheck r.head := by
  apply BitVec.eq_of_toNat_eq
  rw [extract_toNat, FuseRecord.word_toNat]
  omega

theorem fuseCheckOk_word : fuseCheckOk r.word = true := by
  rw [fuseCheckOk, FuseRecord.word_head, FuseRecord.word_check, beq_self_eq_true]

theorem fuseMarker_eq : fuseMarker w = decide (w.toNat / 549755813888 % 2 = 1) := getLsbD_eq_decide w 39

theorem fuseLOf_eq : fuseLOf w = w.toNat / 262144 % 1048576 := extract_toNat w 18 20

theorem fuseSOf_eq : fuseSOf w = w.toNat / 2048 % 128 := extract_toNat w 11 7

theorem fuseKindOf_eq : fuseKindOf w = if w.toNat / 274877906944 % 2 = 1 then .ban else .map := by
  rw [fuseKindOf, getLsbD_eq_decide]
  simp only [decide_eq_true_eq]
  rfl

theorem zeroBits_eq : w.extractLsb' 8 3 = 0#3 ↔ w.toNat / 256 % 8 = 0 := by
  rw [← BitVec.toNat_inj, extract_toNat]
  rfl

end Record

/-! ### A record classified and read back -/

theorem classifySlot_valid_iff {w : FuseWord} :
    classifySlot w = .valid ↔
      w ≠ 0#40 ∧ fuseMarker w = true ∧ fuseCheckOk w = true ∧ w.extractLsb' 8 3 = 0#3 ∧
        (fuseKindOf w = .ban → fuseLOf w = 0) := by
  unfold classifySlot
  split
  next blank => simp [blank]
  next written =>
    split
    next torn => simp [torn]
    next marked =>
      rw [ite_eq_right_iff]
      simp [written, marked]

theorem fuseRecordOf_map {w : FuseWord} (kind : fuseKindOf w = .map) : fuseRecordOf w = .map (fuseLOf w) (fuseSOf w) := by
  rw [fuseRecordOf, kind]

theorem fuseRecordOf_ban {w : FuseWord} (kind : fuseKindOf w = .ban) : fuseRecordOf w = .ban (fuseSOf w) := by
  rw [fuseRecordOf, kind]

/-- A word with its marker is not BLANK. -/
theorem ne_zero_of_marker {w : FuseWord} (marker : fuseMarker w = true) : w ≠ 0#40 := by
  rintro rfl
  exact absurd marker (by decide)

theorem FuseRecord.map_reads {l s : Nat} (inL : l < 1048576) (inS : s < 128) :
    classifySlot (FuseRecord.map l s).word = .valid ∧ fuseRecordOf (FuseRecord.map l s).word = .map l s := by
  have word := (FuseRecord.map l s).word_toNat
  have check := (fuseCheck (FuseRecord.map l s).head).isLt
  rw [FuseRecord.head_map_toNat] at word
  have kind : fuseKindOf (FuseRecord.map l s).word = .map := by rw [fuseKindOf_eq, if_neg (by omega)]
  have marker : fuseMarker (FuseRecord.map l s).word = true := by rw [fuseMarker_eq]; exact decide_eq_true (by omega)
  constructor
  · refine classifySlot_valid_iff.mpr ⟨ne_zero_of_marker marker, marker, fuseCheckOk_word _, (zeroBits_eq _).mpr (by omega), ?_⟩
    rw [kind]
    exact fun ban => nomatch ban
  · rw [fuseRecordOf_map kind, fuseLOf_eq, fuseSOf_eq]
    congr 1 <;> omega

theorem FuseRecord.ban_reads {s : Nat} (inS : s < 128) :
    classifySlot (FuseRecord.ban s).word = .valid ∧ fuseRecordOf (FuseRecord.ban s).word = .ban s := by
  have word := (FuseRecord.ban s).word_toNat
  have check := (fuseCheck (FuseRecord.ban s).head).isLt
  rw [FuseRecord.head_ban_toNat] at word
  have kind : fuseKindOf (FuseRecord.ban s).word = .ban := by rw [fuseKindOf_eq, if_pos (by omega)]
  have marker : fuseMarker (FuseRecord.ban s).word = true := by rw [fuseMarker_eq]; exact decide_eq_true (by omega)
  constructor
  · refine classifySlot_valid_iff.mpr ⟨ne_zero_of_marker marker, marker, fuseCheckOk_word _, (zeroBits_eq _).mpr (by omega),
      fun _ => ?_⟩
    rw [fuseLOf_eq]
    omega
  · rw [fuseRecordOf_ban kind, fuseSOf_eq]
    congr 1
    omega

/-- The fields of a VALID slot are bits 39 to 8 of its record. -/
theorem head_of_valid {w : FuseWord} (valid : classifySlot w = .valid) : (fuseRecordOf w).head = w.extractLsb' 8 32 := by
  obtain ⟨-, marker, -, zero, ban⟩ := classifySlot_valid_iff.mp valid
  rw [fuseMarker_eq, decide_eq_true_eq] at marker
  rw [zeroBits_eq] at zero
  have inside := w.isLt
  apply BitVec.eq_of_toNat_eq
  rw [extract_toNat]
  cases kind : fuseKindOf w with
  | map =>
    rw [fuseRecordOf_map kind, FuseRecord.head_map_toNat, fuseLOf_eq, fuseSOf_eq]
    rw [fuseKindOf_eq] at kind
    split at kind
    · cases kind
    · omega
  | ban =>
    have none := ban kind
    rw [fuseRecordOf_ban kind, FuseRecord.head_ban_toNat, fuseSOf_eq]
    rw [fuseLOf_eq] at none
    rw [fuseKindOf_eq] at kind
    split at kind
    · omega
    · cases kind

theorem word_of_valid {w : FuseWord} (valid : classifySlot w = .valid) : (fuseRecordOf w).word = w := by
  obtain ⟨-, -, check, -⟩ := classifySlot_valid_iff.mp valid
  have head := head_of_valid valid
  apply BitVec.eq_of_toNat_eq
  rw [FuseRecord.word_toNat, head, beq_iff_eq.mp check, extract_toNat, extract_toNat]
  have inside := w.isLt
  omega

/-- The check of a record with every field 0 but the marker is not 0. -/
theorem fuseCheck_marker : fuseCheck 0x80000000#32 ≠ 0#8 := by decide +kernel

theorem FuseRecord.head_marker (r : FuseRecord) : 2147483648 ≤ r.head.toNat := by
  cases r with
  | map l s => rw [FuseRecord.head_map_toNat]; omega
  | ban s => rw [FuseRecord.head_ban_toNat]; omega

/-- A record without its marker is not BLANK: a record of fields 0 has a check. -/
theorem FuseRecord.unmarked_ne_zero (r : FuseRecord) : r.word &&& 0x7FFFFFFFFF#40 ≠ 0#40 := by
  intro blank
  have low : r.word.toNat % 549755813888 = 0 := by
    have := congrArg BitVec.toNat blank
    rwa [BitVec.toNat_and, show (0x7FFFFFFFFF#40).toNat = 2 ^ 39 - 1 from rfl, Nat.and_two_pow_sub_one_eq_mod] at this
  have marker := r.head_marker
  have inside := r.head.isLt
  have check := (fuseCheck r.head).isLt
  rw [FuseRecord.word_toNat] at low
  have head : r.head = 0x80000000#32 := BitVec.eq_of_toNat_eq (by rw [BitVec.toNat_ofNat]; omega)
  have none : fuseCheck r.head = 0#8 := BitVec.eq_of_toNat_eq (by rw [BitVec.toNat_ofNat]; omega)
  rw [head] at none
  exact fuseCheck_marker none

theorem FuseRecord.unmarked_torn (r : FuseRecord) : classifySlot (r.word &&& 0x7FFFFFFFFF#40) = .spoiled (.load .torn) := by
  have marker : fuseMarker (r.word &&& 0x7FFFFFFFFF#40) = false := by
    rw [fuseMarker, BitVec.getLsbD_and, bodyMask_bit 39 (by decide)]
    exact Bool.and_false _
  rw [classifySlot, if_neg r.unmarked_ne_zero, if_pos marker]

/-- Settles O54: the fields of a word as numbers. -/
theorem fuseRecordRoundTrip : Obligations.FuseRecordRoundTrip :=
  ⟨fun _ _ => FuseRecord.map_reads, fun _ => FuseRecord.ban_reads, fun _ => word_of_valid, FuseRecord.unmarked_torn⟩

end Sys2Proof.Machine
end

section
/-! LOADING: the slots read, the records applied, and the table they make (R18, R151 to R156). -/

namespace Sys2Proof.Machine

/-! ### The append pointer (R152) -/

section Pointer
variable {ks : List SlotKind} {k : Nat} {x : SlotKind}

theorem appendPointerOf_blank : ∀ {ks : List SlotKind} {k : Nat}, appendPointerOf ks ≤ k → ks[k]? = some x → x = .blank := by
  intro ks
  induction ks with
  | nil => intro k _ found; simp at found
  | cons y ys ih =>
    intro k above found
    unfold appendPointerOf at above
    split at above
    next empty =>
      cases k with
      | zero =>
        obtain rfl : y = x := Option.some.inj found
        split at above
        · assumption
        · omega
      | succ k => exact ih (by omega) found
    next n pointer =>
      cases k with
      | zero => omega
      | succ k => exact ih (by omega) found

theorem appendPointerOf_written : ∀ {ks : List SlotKind}, 0 < appendPointerOf ks → ks[appendPointerOf ks - 1]? = some x →
    x ≠ .blank := by
  intro ks
  induction ks with
  | nil => intro _ found; simp at found
  | cons y ys ih =>
    unfold appendPointerOf
    split
    next empty =>
      split
      · intro pos; omega
      next written =>
        intro _ found
        obtain rfl : y = x := Option.some.inj found
        exact written
    next n pointer =>
      intro _ found
      rw [pointer] at ih
      exact ih (by omega) found

end Pointer

/-! ### The records applied, and the entry they make -/

/-- What the records applied so far, by slot, make of the entry of a spare (R155, R156). -/
inductive LoadingEntry (A : Nat → FuseRecord → Prop) (sp : Nat) : Entry → Prop
  | free (unnamed : ∀ k r, A k r → r.spare ≠ sp) : LoadingEntry A sp .free
  | hard {l k : Nat} (named : A k (.map l sp)) (last : ∀ k' sp', k < k' → ¬A k' (.map l sp')) (unbanned : ∀ k', ¬A k' (.ban sp)) :
      LoadingEntry A sp (.hard l k)
  | replaced {l k k' sp' : Nat} (named : A k (.map l sp)) (later : k < k') (next : A k' (.map l sp'))
      (unbanned : ∀ k', ¬A k' (.ban sp)) : LoadingEntry A sp (.retired (some l) (some k) false false)
  | bannedMap {l k k' : Nat} (banned : A k (.ban sp)) (named : A k' (.map l sp)) :
      LoadingEntry A sp (.retired (some l) (some k) true false)
  | bannedFree {k : Nat} (banned : A k (.ban sp)) (unmapped : ∀ l k', ¬A k' (.map l sp)) :
      LoadingEntry A sp (.retired none (some k) true false)

/-- The records applied with one more, from slot n. -/
def withApplied (A : Nat → FuseRecord → Prop) (n : Nat) (x : FuseRecord) : Nat → FuseRecord → Prop :=
  fun k r => A k r ∨ (k = n ∧ r = x)

section LoadingEntry
variable {A : Nat → FuseRecord → Prop} {sp n : Nat} {e : Entry} {x : FuseRecord}

/-- An entry that is not FREE is named by an applied record. -/
theorem LoadingEntry.named (h : LoadingEntry A sp e) (taken : e ≠ .free) : ∃ k r, A k r ∧ r.spare = sp := by
  cases h with
  | free => exact absurd rfl taken
  | hard named | replaced named => exact ⟨_, _, named, rfl⟩
  | bannedMap banned | bannedFree banned => exact ⟨_, _, banned, rfl⟩

theorem LoadingEntry.banned_iff (h : LoadingEntry A sp e) : e.banned = true ↔ ∃ k, A k (.ban sp) := by
  cases h with
  | free unnamed => exact iff_of_false (by decide) fun ⟨k, ban⟩ => unnamed k _ ban rfl
  | hard named last unbanned => exact iff_of_false (by simp [Entry.banned]) fun ⟨k, ban⟩ => unbanned k ban
  | replaced named later next unbanned => exact iff_of_false (by simp [Entry.banned]) fun ⟨k, ban⟩ => unbanned k ban
  | bannedMap banned | bannedFree banned => exact iff_of_true rfl ⟨_, banned⟩

/-- An applied record that names another spare, and no L of a HARD entry, leaves the entry. -/
theorem LoadingEntry.other (h : LoadingEntry A sp e) (spare : x.spare ≠ sp)
    (fresh : ∀ l k sp', e = .hard l k → x ≠ .map l sp') : LoadingEntry (withApplied A n x) sp e := by
  have unbanned_kept : (∀ k', ¬A k' (.ban sp)) → ∀ k', ¬withApplied A n x k' (.ban sp) := fun unbanned k' ban => by
    obtain old | ⟨-, rfl⟩ := ban
    · exact unbanned k' old
    · exact spare rfl
  cases h with
  | free unnamed =>
    refine .free fun k r applied => ?_
    obtain old | ⟨-, rfl⟩ := applied
    · exact unnamed k r old
    · exact spare
  | hard named last unbanned =>
    refine .hard (.inl named) (fun k' sp' later applied => ?_) (unbanned_kept unbanned)
    obtain old | ⟨-, new⟩ := applied
    · exact last k' sp' later old
    · exact fresh _ _ sp' rfl new.symm
  | replaced named later next unbanned => exact .replaced (.inl named) later (.inl next) (unbanned_kept unbanned)
  | bannedMap banned named => exact .bannedMap (.inl banned) (.inl named)
  | bannedFree banned unmapped =>
    refine .bannedFree (.inl banned) fun l k' applied => ?_
    obtain old | ⟨-, rfl⟩ := applied
    · exact unmapped l k' old
    · exact spare rfl

/-- A BAN applied to an entry that is not banned (R156). -/
theorem LoadingEntry.ban (h : LoadingEntry A sp e) (unbanned : e.banned = false) :
    LoadingEntry (withApplied A n (.ban sp)) sp (.retired e.l? (some n) true false) := by
  have new : withApplied A n (.ban sp) n (.ban sp) := .inr ⟨rfl, rfl⟩
  cases h with
  | free unnamed =>
    refine .bannedFree new fun l k' applied => ?_
    obtain old | ⟨-, other⟩ := applied
    · exact unnamed k' _ old rfl
    · cases other
  | hard named | replaced named => exact .bannedMap new (.inl named)
  | bannedMap | bannedFree => cases unbanned

end LoadingEntry

/-! ### The table after the slots below n -/

/-- The table is what the records applied from the slots below n make it. -/
structure TableAt (n : Nat) (A : Nat → FuseRecord → Prop) (t : List Entry) : Prop where
  length : t.length = 128
  below : ∀ k r, A k r → k < n
  one : ∀ k r r', A k r → A k r' → r = r'
  entry : ∀ sp < 128, LoadingEntry A sp (entryAt t sp)

namespace TableAt
variable {n : Nat} {A : Nat → FuseRecord → Prop} {t : List Entry} (h : TableAt n A t)
include h

theorem skip : TableAt (n + 1) A t where
  length := h.length
  below := fun k r applied => Nat.lt_succ_of_lt (h.below k r applied)
  one := h.one
  entry := h.entry

/-- The records with one more are one to a slot, and below the next slot. -/
theorem applied {x : FuseRecord} {u : List Entry} (length : u.length = 128)
    (entry : ∀ sp < 128, LoadingEntry (withApplied A n x) sp (entryAt u sp)) : TableAt (n + 1) (withApplied A n x) u where
  length := length
  below := fun k r applied => by
    obtain old | ⟨rfl, -⟩ := applied
    · exact Nat.lt_succ_of_lt (h.below k r old)
    · exact Nat.lt_succ_self k
  one := fun k r r' first second => by
    obtain old | ⟨here, rfl⟩ := first <;> obtain old' | ⟨there, rfl⟩ := second
    · exact h.one k r r' old old'
    · exact absurd (h.below _ _ old) (by omega)
    · exact absurd (h.below _ _ old') (by omega)
    · rfl
  entry := entry

theorem ban {s : Nat} (inside : s < 128) (unbanned : (entryAt t s).banned = false) :
    TableAt (n + 1) (withApplied A n (.ban s)) (t.set s (.retired (entryAt t s).l? (some n) true false)) := by
  refine h.applied (by rw [List.length_set, h.length]) fun sp hsp => ?_
  by_cases here : s = sp
  · subst here
    rw [entryAt_set_self (by rw [h.length]; exact inside)]
    exact (h.entry s hsp).ban unbanned
  · rw [entryAt_set_ne here]
    exact (h.entry sp hsp).other here fun l k sp' _ => nofun

/-- The L of a HARD entry is that of no other. -/
theorem hard_unique {i j l k k' : Nat} (hi : i < 128) (hj : j < 128) (first : entryAt t i = .hard l k)
    (second : entryAt t j = .hard l k') : i = j := by
  have entryI := h.entry i hi
  have entryJ := h.entry j hj
  rw [first] at entryI
  rw [second] at entryJ
  cases entryI with
  | hard named last unbanned =>
    cases entryJ with
    | hard named' last' unbanned' =>
      obtain lt | rfl | gt := Nat.lt_trichotomy k k'
      · exact absurd named' (last k' j lt)
      · cases h.one _ _ _ named named'
        rfl
      · exact absurd named (last' k i gt)

/-- The entry of the spare a MAP names, after its turn. -/
theorem map_named {l s : Nat} (inside : s < 128) (free : entryAt t s = .free) :
    LoadingEntry (withApplied A n (.map l s)) s (.hard l n) := by
  have entry := h.entry s inside
  rw [free] at entry
  cases entry with
  | free unnamed =>
    refine .hard (.inr ⟨rfl, rfl⟩) (fun k' sp' later applied => ?_) fun k' applied => ?_
    · obtain old | ⟨rfl, -⟩ := applied
      · exact absurd (h.below _ _ old) (by omega)
      · exact absurd later (Nat.lt_irrefl _)
    · obtain old | ⟨-, other⟩ := applied
      · exact unnamed k' _ old rfl
      · cases other

/-- The entry that a MAP for its L retires. -/
theorem map_replaced {l s j k : Nat} (inside : j < 128) (hard : entryAt t j = .hard l k) :
    LoadingEntry (withApplied A n (.map l s)) j (.retired (some l) (some k) false false) := by
  have entry := h.entry j inside
  rw [hard] at entry
  cases entry with
  | hard named last unbanned =>
    refine .replaced (.inl named) (h.below _ _ named) (.inr ⟨rfl, rfl⟩) fun k' applied => ?_
    obtain old | ⟨-, other⟩ := applied
    · exact unbanned k' old
    · cases other

theorem map {l s : Nat} (inside : s < 128) (free : entryAt t s = .free) :
    TableAt (n + 1) (withApplied A n (.map l s)) (applyMapTable t n l s) := by
  have size : s < t.length := by rw [h.length]; exact inside
  unfold applyMapTable
  cases found : hardFor t l with
  | none =>
    refine h.applied (by rw [List.length_set, h.length]) fun sp hsp => ?_
    by_cases here : s = sp
    · subst here
      rw [entryAt_set_self size]
      exact h.map_named inside free
    · rw [entryAt_set_ne here]
      refine (h.entry sp hsp).other here fun l' k sp' hard same => ?_
      cases same
      exact hardFor_eq_none.mp found k (hard ▸ entryAt_mem (by rw [h.length]; exact hsp))
  | some j =>
    obtain ⟨hj, k, hard⟩ := entryAt_of_hardFor found
    rw [h.length] at hj
    have elsewhere : s ≠ j := by
      rintro rfl
      rw [free] at hard
      cases hard
    refine h.applied (by rw [List.length_set, List.length_set, h.length]) fun sp hsp => ?_
    by_cases here : s = sp
    · subst here
      rw [entryAt_set_self (by rw [List.length_set]; exact size)]
      exact h.map_named inside free
    · rw [entryAt_set_ne here, hard]
      by_cases replaced : j = sp
      · subst replaced
        rw [entryAt_set_self (by rw [h.length]; exact hj)]
        exact h.map_replaced hj hard
      · rw [entryAt_set_ne replaced]
        refine (h.entry sp hsp).other here fun l' k' sp' other same => ?_
        cases same
        exact replaced (h.hard_unique hj hsp hard other)

end TableAt

end Sys2Proof.Machine
end

section
/-! LOADING: what each slot's turn does to its image (R151, R154 to R156). -/

namespace Sys2Proof.Machine

/-! ### A slot's turn -/

/-- What slot k's turn makes of its image, by the records applied from lower slots (R155, R156). -/
inductive SlotTurn (limit : Nat) (A : Nat → FuseRecord → Prop) (k : Nat) (i : SlotImage) : SlotImage → Prop
  | kept (other : i.kind ≠ .valid) : SlotTurn limit A k i i
  | range {l sp : Nat} (valid : i.kind = .valid) (record : fuseRecordOf i.bits = .map l sp) (beyond : limit ≤ l) :
      SlotTurn limit A k i (i.spoil .range)
  | mapConflict {l sp k' : Nat} {r : FuseRecord} (valid : i.kind = .valid) (record : fuseRecordOf i.bits = .map l sp)
      (inside : l < limit) (earlier : k' < k) (applied : A k' r) (spare : r.spare = sp) :
      SlotTurn limit A k i (i.spoil .conflict)
  | map {l sp : Nat} (valid : i.kind = .valid) (record : fuseRecordOf i.bits = .map l sp) (inside : l < limit)
      (free : ∀ k' < k, ∀ r, A k' r → r.spare ≠ sp) : SlotTurn limit A k i i.apply
  | banConflict {sp k' : Nat} (valid : i.kind = .valid) (record : fuseRecordOf i.bits = .ban sp) (earlier : k' < k)
      (applied : A k' (.ban sp)) : SlotTurn limit A k i (i.spoil .conflict)
  | ban {sp : Nat} (valid : i.kind = .valid) (record : fuseRecordOf i.bits = .ban sp) (first : ∀ k' < k, ¬A k' (.ban sp)) :
      SlotTurn limit A k i i.apply

/-- A turn reads the records of lower slots alone. -/
theorem SlotTurn.congr {limit k : Nat} {A B : Nat → FuseRecord → Prop} {i j : SlotImage} (h : SlotTurn limit A k i j)
    (same : ∀ k' < k, ∀ r, A k' r ↔ B k' r) : SlotTurn limit B k i j := by
  cases h with
  | kept other => exact .kept other
  | range valid record beyond => exact .range valid record beyond
  | mapConflict valid record inside earlier applied spare =>
    exact .mapConflict valid record inside earlier ((same _ earlier _).mp applied) spare
  | map valid record inside free => exact .map valid record inside fun k' lt r applied => free k' lt r ((same k' lt r).mpr applied)
  | banConflict valid record earlier applied => exact .banConflict valid record earlier ((same _ earlier _).mp applied)
  | ban valid record first => exact .ban valid record fun k' lt applied => first k' lt ((same k' lt _).mpr applied)

/-! ### The records applied in a list of images -/

theorem appliedAt_append_of_lt {done more : List SlotImage} {k : Nat} {r : FuseRecord} (lt : k < done.length) :
    appliedAt (done ++ more) k r ↔ appliedAt done k r := by
  simp only [appliedAt, List.getElem?_append_left lt]

theorem appliedAt_lt {images : List SlotImage} {k : Nat} {r : FuseRecord} (h : appliedAt images k r) : k < images.length := by
  obtain ⟨i, found, -⟩ := h
  exact (List.getElem?_eq_some_iff.mp found).1

theorem appliedAt_concat {done : List SlotImage} {i : SlotImage} {k : Nat} {r : FuseRecord} :
    appliedAt (done ++ [i]) k r ↔
      appliedAt done k r ∨ (k = done.length ∧ i.applied = some true ∧ fuseRecordOf i.bits = r) := by
  obtain lt | rfl | gt := Nat.lt_trichotomy k done.length
  · rw [appliedAt_append_of_lt lt]
    exact ⟨.inl, fun h => h.elim id fun h => by omega⟩
  · constructor
    · rintro ⟨j, found, applied, record⟩
      rw [List.getElem?_concat_length] at found
      cases found
      exact .inr ⟨rfl, applied, record⟩
    · rintro (old | ⟨-, applied, record⟩)
      · exact absurd (appliedAt_lt old) (Nat.lt_irrefl _)
      · exact ⟨i, List.getElem?_concat_length, applied, record⟩
  · refine iff_of_false (fun h => ?_) ?_
    · have := appliedAt_lt h
      simp at this
      omega
    · rintro (old | ⟨here, -⟩)
      · exact absurd (appliedAt_lt old) (by omega)
      · omega

theorem appliedAt_concat_not {done : List SlotImage} {i : SlotImage} (not : i.applied ≠ some true) :
    appliedAt (done ++ [i]) = appliedAt done := by
  funext k r
  rw [appliedAt_concat, eq_iff_iff]
  exact ⟨fun h => h.elim id fun h => absurd h.2.1 not, .inl⟩

theorem appliedAt_concat_applied {done : List SlotImage} {i : SlotImage} (applied : i.applied = some true) :
    appliedAt (done ++ [i]) = withApplied (appliedAt done) done.length (fuseRecordOf i.bits) := by
  funext k r
  rw [appliedAt_concat, eq_iff_iff, withApplied]
  simp only [applied, true_and, eq_comm]

theorem fuseRecordOf_spare_lt (w : FuseWord) : (fuseRecordOf w).spare < 128 := by
  have small : fuseSOf w < 128 := (w.extractLsb' 11 7).isLt
  cases kind : fuseKindOf w with
  | map => rw [fuseRecordOf_map kind]; exact small
  | ban => rw [fuseRecordOf_ban kind]; exact small

section Turn
variable {limit : Nat} {t : List Entry} {done : List SlotImage} {i : SlotImage}

theorem TableAt.image_skipped (h : TableAt done.length (appliedAt done) t) (not : i.applied ≠ some true) :
    TableAt (done ++ [i]).length (appliedAt (done ++ [i])) t := by
  rw [appliedAt_concat_not not, List.length_append]
  exact h.skip

theorem TableAt.image_applied {u : List Entry}
    (h : TableAt (done.length + 1) (withApplied (appliedAt done) done.length (fuseRecordOf i.bits)) u) :
    TableAt (done ++ [i.apply]).length (appliedAt (done ++ [i.apply])) u := by
  rw [appliedAt_concat_applied (i := i.apply) rfl, List.length_append]
  exact h

/-- The turn of the next slot. -/
theorem applySlot_turn (h : TableAt done.length (appliedAt done) t) (unapplied : i.applied = none) :
    TableAt (done ++ [(applySlot limit t done.length i).2]).length
        (appliedAt (done ++ [(applySlot limit t done.length i).2])) (applySlot limit t done.length i).1 ∧
      SlotTurn limit (appliedAt done) done.length i (applySlot limit t done.length i).2 := by
  have spoiled : ∀ c, (i.spoil c).applied ≠ some true := fun c => (by simp [SlotImage.spoil])
  have small := fuseRecordOf_spare_lt i.bits
  by_cases valid : i.kind = .valid
  · cases record : fuseRecordOf i.bits with
    | map l s =>
      rw [record] at small
      have turn : applySlot limit t done.length i = applyMap limit t done.length l s i := by
        simp only [applySlot, valid, record]
      rw [turn, applyMap]
      by_cases beyond : limit ≤ l
      · rw [if_pos beyond]
        exact ⟨h.image_skipped (spoiled _), .range valid record beyond⟩
      · rw [if_neg beyond]
        by_cases free : entryAt t s = .free
        · rw [if_neg (not_not_intro free)]
          refine ⟨TableAt.image_applied (record ▸ h.map small free), .map valid record (Nat.not_le.mp beyond) ?_⟩
          have entry := h.entry s small
          rw [free] at entry
          cases entry with
          | free unnamed => exact fun k' _ r applied => unnamed k' r applied
        · rw [if_pos free]
          obtain ⟨k', r, applied, spare⟩ := (h.entry s small).named free
          exact ⟨h.image_skipped (spoiled _),
            .mapConflict valid record (Nat.not_le.mp beyond) (h.below _ _ applied) applied spare⟩
    | ban s =>
      rw [record] at small
      have turn : applySlot limit t done.length i = applyBan t done.length s i := by
        simp only [applySlot, valid, record]
      have named := (h.entry s small).banned_iff
      rw [turn, applyBan]
      by_cases banned : (entryAt t s).banned = true
      · rw [if_pos banned]
        obtain ⟨k', applied⟩ := named.mp banned
        exact ⟨h.image_skipped (spoiled _), .banConflict valid record (h.below _ _ applied) applied⟩
      · rw [if_neg banned]
        exact ⟨TableAt.image_applied (record ▸ h.ban small ((Bool.not_eq_true _).mp banned)),
          .ban valid record fun k' _ applied => banned (named.mpr ⟨k', applied⟩)⟩
  · have turn : applySlot limit t done.length i = (t, i) := by
      unfold applySlot
      split
      · contradiction
      · rfl
    rw [turn]
    exact ⟨h.image_skipped (by rw [unapplied]; decide), .kept valid⟩

end Turn

/-- The turns of all slots. -/
theorem applySlots_turns (limit : Nat) (is : List SlotImage) :
    ∀ {done : List SlotImage} {t : List Entry}, TableAt done.length (appliedAt done) t → (∀ i ∈ is, i.applied = none) →
      ∃ images, (applySlots limit t done.length is).2 = images ∧
        TableAt (done ++ images).length (appliedAt (done ++ images)) (applySlots limit t done.length is).1 ∧
        ∀ (j : Nat) (i' : SlotImage), images[j]? = some i' →
          ∃ i, is[j]? = some i ∧ SlotTurn limit (appliedAt (done ++ images)) (done.length + j) i i' := by
  induction is with
  | nil =>
    intro done t h _
    exact ⟨[], rfl, by rw [List.append_nil]; exact h, fun j i' found => by simp at found⟩
  | cons i is ih =>
    intro done t h unapplied
    obtain ⟨table, turn⟩ := applySlot_turn (limit := limit) h (unapplied i List.mem_cons_self)
    generalize made : applySlot limit t done.length i = r at table turn
    obtain ⟨images, same, last, turns⟩ := ih table fun x hx => unapplied x (List.mem_cons_of_mem i hx)
    have size : (done ++ [r.2]).length = done.length + 1 := by simp
    rw [size] at same last turns
    rw [List.append_assoc, List.singleton_append] at last turns
    refine ⟨r.2 :: images, ?_, ?_, fun j i' found => ?_⟩
    · rw [← same]
      simp only [applySlots, made]
    · rw [applySlots]
      simp only [made]
      exact last
    · cases j with
      | zero =>
        cases found
        exact ⟨i, rfl, turn.congr fun k' lt r' => (appliedAt_append_of_lt lt).symm⟩
      | succ j =>
        obtain ⟨x, there, xTurn⟩ := turns j i' found
        exact ⟨x, there, by rw [show done.length + (j + 1) = done.length + 1 + j by omega]; exact xTurn⟩

end Sys2Proof.Machine
end

section
/-! LOADING, within POWER_ON: what its slot images, its table and its records say (R18, R151 to R156). -/

namespace Sys2Proof.Machine

/-! ### What a turn says of an image -/

namespace SlotTurn
variable {limit k l sp : Nat} {A : Nat → FuseRecord → Prop} {i j : SlotImage} (h : SlotTurn limit A k i j)
include h

theorem bits : j.bits = i.bits := by
  cases h <;> rfl

theorem of_not_valid (other : i.kind ≠ .valid) : j = i := by
  cases h <;> first | rfl | exact absurd ‹i.kind = .valid› other

section Valid
variable (valid : i.kind = .valid)
include valid

theorem result :
    (j.kind = .valid ∧ j.applied = some true) ∨
      (j.applied = some false ∧ (j.kind = .spoiled (.load .range) ∨ j.kind = .spoiled (.load .conflict))) := by
  cases h with
  | kept other => exact absurd valid other
  | range => exact .inr ⟨rfl, .inl rfl⟩
  | mapConflict | banConflict => exact .inr ⟨rfl, .inr rfl⟩
  | map | ban => exact .inl ⟨valid, rfl⟩

theorem range_iff : j.kind = .spoiled (.load .range) ↔ ∃ l sp : Nat, fuseRecordOf i.bits = .map l sp ∧ limit ≤ l := by
  cases h with
  | kept other => exact absurd valid other
  | range _ record beyond => exact iff_of_true rfl ⟨_, _, record, beyond⟩
  | mapConflict _ record inside =>
    refine iff_of_false (by simp [SlotImage.spoil]) ?_
    rintro ⟨l, sp, other, beyond⟩
    cases record.symm.trans other
    omega
  | map _ record inside =>
    refine iff_of_false (by simp [SlotImage.apply, valid]) ?_
    rintro ⟨l, sp, other, beyond⟩
    cases record.symm.trans other
    omega
  | banConflict _ record =>
    refine iff_of_false (by simp [SlotImage.spoil]) ?_
    rintro ⟨l, sp, other, -⟩
    cases record.symm.trans other
  | ban _ record =>
    refine iff_of_false (by simp [SlotImage.apply, valid]) ?_
    rintro ⟨l, sp, other, -⟩
    cases record.symm.trans other

theorem mapConflict_iff (named : fuseRecordOf i.bits = .map l sp) (inside : l < limit) :
    j.kind = .spoiled (.load .conflict) ↔ ∃ k' < k, ∃ r, A k' r ∧ r.spare = sp := by
  cases h with
  | kept other => exact absurd valid other
  | range _ record beyond => cases record.symm.trans named; omega
  | mapConflict _ record _ earlier applied spare =>
    cases record.symm.trans named
    exact iff_of_true rfl ⟨_, earlier, _, applied, spare⟩
  | map _ record _ free =>
    cases record.symm.trans named
    exact iff_of_false (by simp [SlotImage.apply, valid]) fun ⟨k', lt, r, applied, spare⟩ => free k' lt r applied spare
  | banConflict _ record | ban _ record => cases record.symm.trans named

theorem banConflict_iff (named : fuseRecordOf i.bits = .ban sp) :
    j.kind = .spoiled (.load .conflict) ↔ ∃ k' < k, A k' (.ban sp) := by
  cases h with
  | kept other => exact absurd valid other
  | range _ record | mapConflict _ record | map _ record => cases record.symm.trans named
  | banConflict _ record earlier applied =>
    cases record.symm.trans named
    exact iff_of_true rfl ⟨_, earlier, applied⟩
  | ban _ record first =>
    cases record.symm.trans named
    exact iff_of_false (by simp [SlotImage.apply, valid]) fun ⟨k', lt, applied⟩ => first k' lt applied

end Valid

/-- An applied MAP names a spare that no lower applied slot names, and an applied BAN one that no lower BAN names. -/
theorem first (unapplied : i.applied = none) (applied : j.applied = some true) :
    (∀ l sp, fuseRecordOf i.bits = .map l sp → ∀ k' < k, ∀ r, A k' r → r.spare ≠ sp) ∧
      ∀ sp, fuseRecordOf i.bits = .ban sp → ∀ k' < k, ¬A k' (.ban sp) := by
  cases h with
  | kept => rw [unapplied] at applied; cases applied
  | range | mapConflict | banConflict => cases applied
  | map _ record _ free =>
    refine ⟨fun l sp named => ?_, fun sp named => ?_⟩
    · cases record.symm.trans named
      exact free
    · cases record.symm.trans named
  | ban _ record first =>
    refine ⟨fun l sp named => ?_, fun sp named => ?_⟩
    · cases record.symm.trans named
    · cases record.symm.trans named
      exact first

end SlotTurn

/-! ### The images as read -/

theorem classifySlot_blank {w : FuseWord} (h : classifySlot w = .blank) : w = 0#40 := by
  unfold classifySlot at h
  split at h
  · assumption
  · split at h
    · cases h
    · split at h <;> cases h

theorem classifySlot_spoiled {w : FuseWord} {c : SpoilCause} (h : classifySlot w = .spoiled c) :
    c ≠ .load .range ∧ c ≠ .load .conflict := by
  unfold classifySlot at h
  split at h
  · cases h
  · split at h
    · cases h; decide
    · split at h
      · cases h; decide
      · cases h

theorem imageAt_valid_iff {ptr k : Nat} {w : FuseWord} : (imageAt ptr k w).kind = .valid ↔ classifySlot w = .valid := by
  simp only [imageAt, slotKindAt]
  split
  next blank => rw [blank.1]; exact iff_of_false (by simp) (by simp)
  · rfl

theorem imageAt_range {ptr k : Nat} {w : FuseWord} : (imageAt ptr k w).kind ≠ .spoiled (.load .range) := by
  simp only [imageAt, slotKindAt]
  split
  · simp
  · exact fun range => (classifySlot_spoiled range).1 rfl

theorem imagesOf_getElem? {array : List FuseWord} {k : Nat} {i : SlotImage} (h : (imagesOf array)[k]? = some i) :
    ∃ w, array[k]? = some w ∧ i = imageAt (appendPointerAt array) k w := by
  simp only [imagesOf, List.getElem?_map, List.getElem?_zipIdx, Option.map_map, Option.map_eq_some_iff, Function.comp,
    Nat.zero_add] at h
  obtain ⟨w, found, rfl⟩ := h
  exact ⟨w, found, rfl⟩

theorem imagesOf_bits (array : List FuseWord) : (imagesOf array).map SlotImage.bits = array := by
  rw [imagesOf, List.map_map]
  exact List.zipIdx_map_fst 0 array

theorem imagesOf_unapplied {array : List FuseWord} {i : SlotImage} (h : i ∈ imagesOf array) : i.applied = none := by
  obtain ⟨x, -, rfl⟩ := List.mem_map.mp h
  rfl

theorem applySlot_bits (limit : Nat) (t : List Entry) (k : Nat) (i : SlotImage) : (applySlot limit t k i).2.bits = i.bits := by
  unfold applySlot
  split
  · split
    · unfold applyMap
      split
      · rfl
      · split <;> rfl
    · unfold applyBan
      split <;> rfl
  · rfl

theorem applySlots_bits (limit : Nat) (is : List SlotImage) :
    ∀ (t : List Entry) (k : Nat), (applySlots limit t k is).2.map SlotImage.bits = is.map SlotImage.bits := by
  induction is with
  | nil => exact fun _ _ => rfl
  | cons i is ih => exact fun t k => congrArg₂ List.cons (applySlot_bits limit t k i) (ih _ _)

/-- The FUSE_SPOILED records of LOADING, in slot order. -/
theorem spoiledRecords_body (is : List SlotImage) :
    ∀ k, (spoiledRecords k is).map Handed.body =
      (is.zipIdx k).filterMap fun x => x.1.loadCause?.map fun c => RecordBody.fuseSpoiled x.2 c := by
  induction is with
  | nil => exact fun _ => rfl
  | cons i is ih =>
    intro k
    rw [spoiledRecords, List.zipIdx_cons, List.filterMap_cons]
    cases cause : i.loadCause? with
    | none => simpa using ih (k + 1)
    | some c => simpa using ih (k + 1)

/-- LOADING's table and images, slot by slot. -/
theorem loadedOf_turns (limit : Nat) (array : List FuseWord) :
    TableAt (loadedOf limit array).2.length (appliedAt (loadedOf limit array).2) (loadedOf limit array).1 ∧
      ∀ (k : Nat) (i : SlotImage), (loadedOf limit array).2[k]? = some i →
        ∃ w, array[k]? = some w ∧
          SlotTurn limit (appliedAt (loadedOf limit array).2) k (imageAt (appendPointerAt array) k w) i := by
  have start : TableAt ([] : List SlotImage).length (appliedAt []) (List.replicate 128 .free) := by
    have none : ∀ k r, ¬appliedAt [] k r := fun k r h => absurd (appliedAt_lt h) (Nat.not_lt_zero k)
    refine ⟨List.length_replicate, fun k r h => absurd h (none k r), fun k r _ h => absurd h (none k r), fun sp _ => ?_⟩
    rw [entryAt_replicate]
    exact .free fun k r h => absurd h (none k r)
  obtain ⟨images, same, table, turns⟩ := applySlots_turns limit (imagesOf array) start fun i => imagesOf_unapplied
  have made : (loadedOf limit array).2 = images := same
  rw [made]
  refine ⟨table, fun k i found => ?_⟩
  obtain ⟨x, there, turn⟩ := turns k i found
  obtain ⟨w, stored, rfl⟩ := imagesOf_getElem? there
  rw [List.length_nil, Nat.zero_add] at turn
  exact ⟨w, stored, turn⟩

/-! ### The entries of the table -/

/-- The records applied, by slot: a MAP names a spare that no lower slot names, and a BAN one that no lower BAN names. -/
structure Applied (A : Nat → FuseRecord → Prop) : Prop where
  one : ∀ k r r', A k r → A k r' → r = r'
  map : ∀ k l sp, A k (.map l sp) → ∀ k' < k, ∀ r, A k' r → r.spare ≠ sp
  ban : ∀ k sp, A k (.ban sp) → ∀ k' < k, ¬A k' (.ban sp)

namespace Applied
variable {A : Nat → FuseRecord → Prop} (h : Applied A) {k k' l l' sp : Nat} {e : Entry}
include h

/-- One MAP is applied to a spare. -/
theorem map_unique (first : A k (.map l sp)) (second : A k' (.map l' sp)) : k = k' ∧ l = l' := by
  obtain lt | rfl | gt := Nat.lt_trichotomy k k'
  · exact absurd rfl (h.map k' l' sp second k lt _ first)
  · cases h.one _ _ _ first second
    exact ⟨rfl, rfl⟩
  · exact absurd rfl (h.map k l sp first k' gt _ second)

/-- One BAN is applied to a spare. -/
theorem ban_unique (first : A k (.ban sp)) (second : A k' (.ban sp)) : k = k' := by
  obtain lt | same | gt := Nat.lt_trichotomy k k'
  · exact absurd first (h.ban k' sp second k lt)
  · exact same
  · exact absurd second (h.ban k sp first k' gt)

/-- The BAN of a spare comes after its MAP. -/
theorem map_lt_ban (map : A k (.map l sp)) (ban : A k' (.ban sp)) : k < k' := by
  obtain lt | rfl | gt := Nat.lt_trichotomy k k'
  · exact lt
  · cases h.one _ _ _ map ban
  · exact absurd rfl (h.map k l sp map k' gt _ ban)

end Applied

namespace LoadingEntry
variable {A : Nat → FuseRecord → Prop} {l k sp : Nat} {e : Entry} (entry : LoadingEntry A sp e)
include entry

theorem free_iff : e = .free ↔ ∀ k r, A k r → r.spare ≠ sp := by
  constructor
  · rintro rfl
    cases entry with
    | free unnamed => exact unnamed
  · intro unnamed
    by_contra taken
    obtain ⟨k, r, applied, spare⟩ := entry.named taken
    exact unnamed k r applied spare

variable (h : Applied A)
include h

theorem replaced_iff :
    e = .retired (some l) (some k) false false ↔
      A k (.map l sp) ∧ (∃ k' sp', k < k' ∧ A k' (.map l sp')) ∧ ∀ k', ¬A k' (.ban sp) := by
  constructor
  · rintro rfl
    cases entry with
    | replaced named later next unbanned => exact ⟨named, ⟨_, _, later, next⟩, unbanned⟩
  · rintro ⟨map, ⟨k', sp', later, next⟩, unbanned⟩
    cases entry with
    | free unnamed => exact absurd rfl (unnamed k _ map)
    | hard named last =>
      obtain ⟨rfl, rfl⟩ := h.map_unique named map
      exact absurd next (last k' sp' later)
    | replaced named =>
      obtain ⟨rfl, rfl⟩ := h.map_unique named map
      rfl
    | bannedMap banned | bannedFree banned => exact absurd banned (unbanned _)

theorem hard_iff :
    e = .hard l k ↔
      A k (.map l sp) ∧ ∀ k', k < k' → (∀ sp', ¬A k' (.map l sp')) ∧ ¬A k' (.ban sp) := by
  constructor
  · rintro rfl
    cases entry with
    | hard named last unbanned => exact ⟨named, fun k' later => ⟨fun sp' => last k' sp' later, unbanned k'⟩⟩
  · rintro ⟨map, last⟩
    cases entry with
    | free unnamed => exact absurd rfl (unnamed k _ map)
    | hard named =>
      obtain ⟨rfl, rfl⟩ := h.map_unique named map
      rfl
    | replaced named later next =>
      obtain ⟨rfl, rfl⟩ := h.map_unique named map
      exact absurd next ((last _ later).1 _)
    | bannedMap banned | bannedFree banned => exact absurd banned (last _ (h.map_lt_ban map banned)).2

theorem banned_eq (ban : A k (.ban sp)) :
    (∀ l k', A k' (.map l sp) → e = .retired (some l) (some k) true false) ∧
      ((∀ l k', ¬A k' (.map l sp)) → e = .retired none (some k) true false) := by
  cases entry with
  | free unnamed => exact absurd rfl (unnamed k _ ban)
  | hard named last unbanned | replaced named later next unbanned => exact absurd ban (unbanned k)
  | bannedMap banned named =>
    obtain rfl := h.ban_unique banned ban
    refine ⟨fun l k' map => ?_, fun none => absurd named (none _ _)⟩
    obtain ⟨-, rfl⟩ := h.map_unique named map
    rfl
  | bannedFree banned unmapped =>
    obtain rfl := h.ban_unique banned ban
    exact ⟨fun l k' map => absurd map (unmapped l k'), fun _ => rfl⟩

end LoadingEntry

section Images
variable {limit ptr : Nat} {array : List FuseWord} {images : List SlotImage}
  (turns : ∀ (k : Nat) (i : SlotImage), images[k]? = some i →
    ∃ w, array[k]? = some w ∧ SlotTurn limit (appliedAt images) k (imageAt ptr k w) i)
include turns

theorem applied_of_turns (one : ∀ k r r', appliedAt images k r → appliedAt images k r' → r = r') : Applied (appliedAt images) := by
  have first : ∀ k i, images[k]? = some i → i.applied = some true →
      (∀ l sp, fuseRecordOf i.bits = .map l sp → ∀ k' < k, ∀ r, appliedAt images k' r → r.spare ≠ sp) ∧
        ∀ sp, fuseRecordOf i.bits = .ban sp → ∀ k' < k, ¬appliedAt images k' (.ban sp) := fun k i found applied => by
    obtain ⟨w, -, turn⟩ := turns k i found
    rw [turn.bits]
    exact turn.first rfl applied
  refine ⟨one, ?_, ?_⟩
  · rintro k l sp ⟨i, found, applied, record⟩
    exact (first k i found applied).1 l sp record
  · rintro k sp ⟨i, found, applied, record⟩
    exact (first k i found applied).2 sp record

section Image
variable {k : Nat} {i : SlotImage} (found : images[k]? = some i)
include found

/-- The turn of a slot, by the bits of its image. -/
theorem image_turn : SlotTurn limit (appliedAt images) k (imageAt ptr k i.bits) i := by
  obtain ⟨w, -, turn⟩ := turns k i found
  rw [turn.bits]
  exact turn

theorem image_of_not_valid (other : classifySlot i.bits ≠ .valid) : i = imageAt ptr k i.bits :=
  (image_turn turns found).of_not_valid (mt imageAt_valid_iff.mp other)

theorem image_range_iff :
    i.kind = .spoiled (.load .range) ↔
      classifySlot i.bits = .valid ∧ ∃ l sp : Nat, fuseRecordOf i.bits = .map l sp ∧ limit ≤ l := by
  by_cases valid : classifySlot i.bits = .valid
  · rw [(image_turn turns found).range_iff (imageAt_valid_iff.mpr valid)]
    exact (and_iff_right valid).symm
  · refine iff_of_false ?_ fun h => valid h.1
    rw [image_of_not_valid turns found valid]
    exact imageAt_range

end Image

end Images

/-- A MAP is the last of its L, with no BAN of its spare after it. -/
theorem appliedAt_last_iff {images : List SlotImage} {k l sp : Nat} :
    (appliedAt images k (.map l sp) ∧
        ∀ k', k < k' → (∀ sp', ¬appliedAt images k' (.map l sp')) ∧ ¬appliedAt images k' (.ban sp)) ↔
      ∃ i : SlotImage, images[k]? = some i ∧ i.applied = some true ∧ fuseRecordOf i.bits = .map l sp ∧
        ∀ (k' : Nat) (i' : SlotImage), k < k' → images[k']? = some i' → i'.applied = some true →
          (∀ sp', fuseRecordOf i'.bits ≠ .map l sp') ∧ fuseRecordOf i'.bits ≠ .ban sp := by
  constructor
  · rintro ⟨⟨i, found, applied, record⟩, last⟩
    refine ⟨i, found, applied, record, fun k' i' later found' applied' => ?_⟩
    obtain ⟨unmapped, unbanned⟩ := last k' later
    exact ⟨fun sp' record' => unmapped sp' ⟨i', found', applied', record'⟩, fun record' => unbanned ⟨i', found', applied', record'⟩⟩
  · rintro ⟨i, found, applied, record, last⟩
    refine ⟨⟨i, found, applied, record⟩, fun k' later => ⟨?_, ?_⟩⟩
    · rintro sp' ⟨i', found', applied', record'⟩
      exact (last k' i' later found' applied').1 sp' record'
    · rintro ⟨i', found', applied', record'⟩
      exact (last k' i' later found' applied').2 record'

/-- Settles O5: the turns of the slots give the images, and the records they apply the table. -/
theorem loadingAppliesFuseRecords : Obligations.LoadingAppliesFuseRecords := by
  unfold Obligations.LoadingAppliesFuseRecords
  intro cap prst fwe mcs s _
  obtain ⟨table, turns⟩ := loadedOf_turns ((Capacity.ofStraps cap).blocks - Config.spares) s.fuseArray
  have bits := (applySlots_bits ((Capacity.ofStraps cap).blocks - Config.spares) (imagesOf s.fuseArray)
    (List.replicate Config.spares .free) 0).trans (imagesOf_bits s.fuseArray)
  have history := applied_of_turns turns table.one
  have blank : ∀ k w, s.fuseArray[k]? = some w → appendPointerAt s.fuseArray ≤ k → classifySlot w = .blank :=
    fun k w stored above => appendPointerOf_blank above (by rw [List.getElem?_map, stored]; rfl)
  have written : ∀ w, s.fuseArray[appendPointerAt s.fuseArray - 1]? = some w → 0 < appendPointerAt s.fuseArray →
      classifySlot w ≠ .blank := fun w there pos =>
    appendPointerOf_written pos (by rw [List.getElem?_map]; exact congrArg (Option.map classifySlot) there)
  have stored : ∀ (k : Nat) (i : SlotImage), (loadedOf ((Capacity.ofStraps cap).blocks - Config.spares) s.fuseArray).2[k]? = some i →
      s.fuseArray[k]? = some i.bits := fun k i found => by
    obtain ⟨w, there, turn⟩ := turns k i found
    rw [turn.bits]
    exact there
  refine ⟨powerOnEffect { cap := cap, fweHigh := fwe } prst mcs s, _, _, rfl, rfl, rfl, bits, blank, written, ?_, ?_, ?_, ?_, ?_, ?_,
    ?_, ?_, ?_, ?_, ?_, ?_, ?_, ?_⟩
  · intro k i found below torn
    rw [image_of_not_valid turns found (by rw [torn]; decide)]
    exact if_pos ⟨torn, below⟩
  · intro k i c found spoiled
    rw [image_of_not_valid turns found (by rw [spoiled]; simp)]
    exact (if_neg fun h => by rw [spoiled] at h; cases h.1).trans spoiled
  · exact fun k i found valid => (image_turn turns found).result (imageAt_valid_iff.mpr valid)
  · exact fun k i found => image_range_iff turns found
  · exact fun k i l sp found valid record inside =>
      (image_turn turns found).mapConflict_iff (imageAt_valid_iff.mpr valid) record inside
  · exact fun k i sp found valid record => (image_turn turns found).banConflict_iff (imageAt_valid_iff.mpr valid) record
  · intro k i found other
    rw [image_of_not_valid turns found other]
    rfl
  · intro k i found above
    have empty := blank k _ (stored k i found) above
    refine ⟨?_, classifySlot_blank empty⟩
    rw [image_of_not_valid turns found (by rw [empty]; decide)]
    exact (if_neg fun below => Nat.not_lt.mpr above below.2).trans empty
  · exact fun sp inside => (table.entry sp inside).free_iff
  · exact fun sp inside l k => (table.entry sp inside).replaced_iff history
  · exact fun sp inside k ban => (table.entry sp inside).banned_eq history ban
  · intro sp inside l k
    exact ((table.entry sp inside).hard_iff history).trans appliedAt_last_iff
  · exact fun sp inside => (table.entry sp inside).banned_iff
  · exact spoiledRecords_body _ 0

end Sys2Proof.Machine
end
